-- ==== Sys2Proof/Word.lean ====
section
/-! DEFINITION. The two word types of the core: the 8-bit data byte and the 16-bit address (R7, R8). -/

namespace Sys2Proof

/-- A data byte: every register but PC, and every memory cell (R7). -/
abbrev Byte := BitVec 8

/-- A 16-bit quantity: PC, an effective address, an absolute operand (R7). -/
abbrev Word := BitVec 16

end Sys2Proof
end

