-- ==== Sys2Proof/Machine/Bits.lean ====
section
/-! DEFINITION. Slices, extensions and the byte order of 16-bit quantities (R9, R51). -/

namespace Sys2Proof

/-- `hi << 8 | lo` (R9). -/
def wordOf (hi lo : Byte) : Word := hi ++ lo

/-- `v[15:8]` (R9). -/
def hiByte (w : Word) : Byte := w.extractLsb' 8 8

/-- `v[7:0]` (R9). -/
def loByte (w : Word) : Byte := w.extractLsb' 0 8

/-- `page(a)`, the high byte of an address (R9). -/
def page (w : Word) : Byte := hiByte w

/-- `zext_16(v)` (R9). -/
def zext16 (b : Byte) : Word := b.setWidth 16

/-- `sext_8(v)` as a 16-bit two's-complement number (R9), the branch displacement of R87. -/
def sext16 (b : Byte) : Word := b.signExtend 16

/-- `v[i]` of a byte (R9). -/
def bit (b : Byte) (i : Nat) : Bool := b.getLsbD i

end Sys2Proof
end

