-- ==== Sys2Proof/Syntax.lean ====
section
/-! DEFINITION. The instruction set as syntax: the 56 mnemonics (R2), the 13 addressing modes (R81) and
`Instr`, one constructor for each of the 151 rows of the opcode map (R84). Operands carry the widths
R87 gives them, so an operand out of range does not exist (I11). -/

namespace Sys2Proof

/-- The 56 mnemonics (R2, R107). -/
inductive Mnemonic where
  | lda | ldx | ldy | sta | stx | sty | tax | tay | tsx | txa | txs | tya
  | adc | sbc | and | ora | eor | cmp | cpx | cpy | bit | asl | lsr | rol
  | ror | inc | dec | inx | iny | dex | dey | bcc | bcs | beq | bne | bmi
  | bpl | bvc | bvs | jmp | jsr | rts | pha | pla | php | plp | brk | rti
  | sec | clc | sei | cli | sed | cld | clv | nop
deriving DecidableEq, Repr

/-- The 13 addressing modes (R81). -/
inductive AddrMode where
  | implied | accumulator | immediate | zeroPage | zeroPageX | zeroPageY
  | absolute | absoluteX | absoluteY | indirectX | indirectY | indirect | relative
deriving DecidableEq, Repr

/-- The 151 documented opcodes (R84). A constructor's name is the mnemonic followed by its mode:
Imm `#`, Zp, ZpX, ZpY zero page, Abs, AbsX, AbsY absolute, IndX `(zp,X)`, IndY `(zp),Y`, Ind `(abs)`,
Acc the accumulator form. The operand is `m` an immediate byte, `b` a zero-page address, `p` a
zero-page pointer, `w` an absolute operand, `d` a displacement byte. -/
inductive Instr where
  | ldaImm (m : Byte)
  | ldaZp (b : Byte)
  | ldaZpX (b : Byte)
  | ldaAbs (w : Word)
  | ldaAbsX (w : Word)
  | ldaAbsY (w : Word)
  | ldaIndX (p : Byte)
  | ldaIndY (p : Byte)
  | ldxImm (m : Byte)
  | ldxZp (b : Byte)
  | ldxZpY (b : Byte)
  | ldxAbs (w : Word)
  | ldxAbsY (w : Word)
  | ldyImm (m : Byte)
  | ldyZp (b : Byte)
  | ldyZpX (b : Byte)
  | ldyAbs (w : Word)
  | ldyAbsX (w : Word)
  | staZp (b : Byte)
  | staZpX (b : Byte)
  | staAbs (w : Word)
  | staAbsX (w : Word)
  | staAbsY (w : Word)
  | staIndX (p : Byte)
  | staIndY (p : Byte)
  | stxZp (b : Byte)
  | stxZpY (b : Byte)
  | stxAbs (w : Word)
  | styZp (b : Byte)
  | styZpX (b : Byte)
  | styAbs (w : Word)
  | tax
  | tay
  | tsx
  | txa
  | txs
  | tya
  | adcImm (m : Byte)
  | adcZp (b : Byte)
  | adcZpX (b : Byte)
  | adcAbs (w : Word)
  | adcAbsX (w : Word)
  | adcAbsY (w : Word)
  | adcIndX (p : Byte)
  | adcIndY (p : Byte)
  | sbcImm (m : Byte)
  | sbcZp (b : Byte)
  | sbcZpX (b : Byte)
  | sbcAbs (w : Word)
  | sbcAbsX (w : Word)
  | sbcAbsY (w : Word)
  | sbcIndX (p : Byte)
  | sbcIndY (p : Byte)
  | andImm (m : Byte)
  | andZp (b : Byte)
  | andZpX (b : Byte)
  | andAbs (w : Word)
  | andAbsX (w : Word)
  | andAbsY (w : Word)
  | andIndX (p : Byte)
  | andIndY (p : Byte)
  | oraImm (m : Byte)
  | oraZp (b : Byte)
  | oraZpX (b : Byte)
  | oraAbs (w : Word)
  | oraAbsX (w : Word)
  | oraAbsY (w : Word)
  | oraIndX (p : Byte)
  | oraIndY (p : Byte)
  | eorImm (m : Byte)
  | eorZp (b : Byte)
  | eorZpX (b : Byte)
  | eorAbs (w : Word)
  | eorAbsX (w : Word)
  | eorAbsY (w : Word)
  | eorIndX (p : Byte)
  | eorIndY (p : Byte)
  | cmpImm (m : Byte)
  | cmpZp (b : Byte)
  | cmpZpX (b : Byte)
  | cmpAbs (w : Word)
  | cmpAbsX (w : Word)
  | cmpAbsY (w : Word)
  | cmpIndX (p : Byte)
  | cmpIndY (p : Byte)
  | cpxImm (m : Byte)
  | cpxZp (b : Byte)
  | cpxAbs (w : Word)
  | cpyImm (m : Byte)
  | cpyZp (b : Byte)
  | cpyAbs (w : Word)
  | bitZp (b : Byte)
  | bitAbs (w : Word)
  | aslAcc
  | aslZp (b : Byte)
  | aslZpX (b : Byte)
  | aslAbs (w : Word)
  | aslAbsX (w : Word)
  | lsrAcc
  | lsrZp (b : Byte)
  | lsrZpX (b : Byte)
  | lsrAbs (w : Word)
  | lsrAbsX (w : Word)
  | rolAcc
  | rolZp (b : Byte)
  | rolZpX (b : Byte)
  | rolAbs (w : Word)
  | rolAbsX (w : Word)
  | rorAcc
  | rorZp (b : Byte)
  | rorZpX (b : Byte)
  | rorAbs (w : Word)
  | rorAbsX (w : Word)
  | incZp (b : Byte)
  | incZpX (b : Byte)
  | incAbs (w : Word)
  | incAbsX (w : Word)
  | decZp (b : Byte)
  | decZpX (b : Byte)
  | decAbs (w : Word)
  | decAbsX (w : Word)
  | inx
  | iny
  | dex
  | dey
  | bcc (d : Byte)
  | bcs (d : Byte)
  | beq (d : Byte)
  | bne (d : Byte)
  | bmi (d : Byte)
  | bpl (d : Byte)
  | bvc (d : Byte)
  | bvs (d : Byte)
  | jmpAbs (w : Word)
  | jmpInd (w : Word)
  | jsr (w : Word)
  | rts
  | pha
  | pla
  | php
  | plp
  | brk
  | rti
  | sec
  | clc
  | sei
  | cli
  | sed
  | cld
  | clv
  | nop
deriving DecidableEq, Repr

end Sys2Proof
end

