-- ==== Sys2Proof/WellFormed.lean ====
section
/-! DEFINITION. What is well formed before it reaches the core: an instruction given as mnemonic, mode
and operand number (R84, R87), and a launch request of the harness (R261, R290). -/

namespace Sys2Proof

/-- Operand bytes of a mode (R80, R81). -/
def AddrMode.operandBytes : AddrMode → Nat
  | .implied | .accumulator => 0
  | .immediate | .zeroPage | .zeroPageX | .zeroPageY | .indirectX | .indirectY | .relative => 1
  | .absolute | .absoluteX | .absoluteY | .indirect => 2

/-- The modes in which a mnemonic exists: the cells of the opcode map (R84). -/
def Mnemonic.modes : Mnemonic → List AddrMode
  | .lda | .adc | .sbc | .and | .ora | .eor | .cmp =>
    [.immediate, .zeroPage, .zeroPageX, .absolute, .absoluteX, .absoluteY, .indirectX, .indirectY]
  | .ldx => [.immediate, .zeroPage, .zeroPageY, .absolute, .absoluteY]
  | .ldy => [.immediate, .zeroPage, .zeroPageX, .absolute, .absoluteX]
  | .sta => [.zeroPage, .zeroPageX, .absolute, .absoluteX, .absoluteY, .indirectX, .indirectY]
  | .stx => [.zeroPage, .zeroPageY, .absolute]
  | .sty => [.zeroPage, .zeroPageX, .absolute]
  | .tax | .tay | .tsx | .txa | .txs | .tya | .inx | .iny | .dex | .dey | .rts | .pha | .pla
  | .php | .plp | .brk | .rti | .sec | .clc | .sei | .cli | .sed | .cld | .clv | .nop => [.implied]
  | .cpx | .cpy => [.immediate, .zeroPage, .absolute]
  | .bit => [.zeroPage, .absolute]
  | .asl | .lsr | .rol | .ror => [.accumulator, .zeroPage, .zeroPageX, .absolute, .absoluteX]
  | .inc | .dec => [.zeroPage, .zeroPageX, .absolute, .absoluteX]
  | .bcc | .bcs | .beq | .bne | .bmi | .bpl | .bvc | .bvs => [.relative]
  | .jmp => [.absolute, .indirect]
  | .jsr => [.absolute]

/-- An instruction as the assembler or the harness names it: nothing says yet that the mnemonic has the
mode or that the operand fits. -/
structure RawInstr where
  mnemonic : Mnemonic
  mode     : AddrMode
  operand  : Nat
deriving DecidableEq, Repr

/-- The opcode map has the mnemonic in that mode (R84). -/
def RawInstr.modeOk (r : RawInstr) : Bool := r.mnemonic.modes.contains r.mode

/-- The operand is a number of as many bytes as the mode has (R87); 0 where there is none. -/
def RawInstr.operandOk (r : RawInstr) : Bool := decide (r.operand < 256 ^ r.mode.operandBytes)

/-- Both checks: the raw instruction is one of the 151 entries with an operand in range. -/
def RawInstr.wellFormed (r : RawInstr) : Bool := r.modeOk && r.operandOk

/-- What the host hands to the launch (R290), as plain numbers: the program, the memory overlay, and the
registers and flags it chooses to set. -/
structure LaunchRequest where
  program : List Nat := []
  overlay : List (Nat × Nat) := []
  pc : Option Nat := none
  a  : Option Nat := none
  x  : Option Nat := none
  y  : Option Nat := none
  sp : Option Nat := none
  c  : Option Nat := none
  z  : Option Nat := none
  i  : Option Nat := none
  d  : Option Nat := none
  b  : Option Nat := none
  v  : Option Nat := none
  n  : Option Nat := none
deriving DecidableEq, Repr

/-- A setting is absent or below its bound. -/
def settingOk (bound : Nat) (r : Option Nat) : Bool :=
  match r with
  | none => true
  | some k => decide (k < bound)

/-- Register values lie in their widths (R290: "a register value outside its width"). -/
def LaunchRequest.registersOk (r : LaunchRequest) : Bool :=
  settingOk 65536 r.pc && settingOk 256 r.a && settingOk 256 r.x && settingOk 256 r.y
    && settingOk 256 r.sp

/-- Flag values are 0 or 1 (R27). -/
def LaunchRequest.flagsOk (r : LaunchRequest) : Bool :=
  settingOk 2 r.c && settingOk 2 r.z && settingOk 2 r.i && settingOk 2 r.d && settingOk 2 r.b
    && settingOk 2 r.v && settingOk 2 r.n

/-- Overlay addresses lie in 0 to 65535 and every memory value is a byte (R290, R50). -/
def LaunchRequest.memoryOk (r : LaunchRequest) : Bool :=
  r.program.all (fun v => decide (v < 256))
    && r.overlay.all (fun p => decide (p.1 < 65536) && decide (p.2 < 256))

/-- The construction-time checks of the harness (R261, R290). -/
def LaunchRequest.wellFormed (r : LaunchRequest) : Bool :=
  r.registersOk && r.flagsOk && r.memoryOk

end Sys2Proof
end

