-- ==== Sys2Proof/Decode.lean ====
section
/-! DEFINITION. The opcode map (R84), the decoder from bytes (R80, R82, R86, R87), the encoder, and the
reading of an instruction as mnemonic, mode and operand. -/

namespace Sys2Proof

/-- What the opcode byte leaves to be read: nothing, one operand byte, or a 16-bit operand low byte
first (R80, R87). -/
inductive Form where
  | bare (i : Instr)
  | byte (f : Byte → Instr)
  | word (f : Word → Instr)

/-- The operand bytes a form still needs. -/
def Form.operandBytes : Form → Nat
  | .bare _ => 0
  | .byte _ => 1
  | .word _ => 2

/-- Row 0x of the opcode map (R84). -/
def opcodeRow0 : List (Byte × Form) :=
  [(0x00, .bare .brk), (0x01, .byte .oraIndX), (0x05, .byte .oraZp), (0x06, .byte .aslZp),
   (0x08, .bare .php), (0x09, .byte .oraImm), (0x0A, .bare .aslAcc), (0x0D, .word .oraAbs),
   (0x0E, .word .aslAbs)]

/-- Row 1x of the opcode map (R84). -/
def opcodeRow1 : List (Byte × Form) :=
  [(0x10, .byte .bpl), (0x11, .byte .oraIndY), (0x15, .byte .oraZpX), (0x16, .byte .aslZpX),
   (0x18, .bare .clc), (0x19, .word .oraAbsY), (0x1D, .word .oraAbsX), (0x1E, .word .aslAbsX)]

/-- Row 2x of the opcode map (R84). -/
def opcodeRow2 : List (Byte × Form) :=
  [(0x20, .word .jsr), (0x21, .byte .andIndX), (0x24, .byte .bitZp), (0x25, .byte .andZp),
   (0x26, .byte .rolZp), (0x28, .bare .plp), (0x29, .byte .andImm), (0x2A, .bare .rolAcc),
   (0x2C, .word .bitAbs), (0x2D, .word .andAbs), (0x2E, .word .rolAbs)]

/-- Row 3x of the opcode map (R84). -/
def opcodeRow3 : List (Byte × Form) :=
  [(0x30, .byte .bmi), (0x31, .byte .andIndY), (0x35, .byte .andZpX), (0x36, .byte .rolZpX),
   (0x38, .bare .sec), (0x39, .word .andAbsY), (0x3D, .word .andAbsX), (0x3E, .word .rolAbsX)]

/-- Row 4x of the opcode map (R84). -/
def opcodeRow4 : List (Byte × Form) :=
  [(0x40, .bare .rti), (0x41, .byte .eorIndX), (0x45, .byte .eorZp), (0x46, .byte .lsrZp),
   (0x48, .bare .pha), (0x49, .byte .eorImm), (0x4A, .bare .lsrAcc), (0x4C, .word .jmpAbs),
   (0x4D, .word .eorAbs), (0x4E, .word .lsrAbs)]

/-- Row 5x of the opcode map (R84). -/
def opcodeRow5 : List (Byte × Form) :=
  [(0x50, .byte .bvc), (0x51, .byte .eorIndY), (0x55, .byte .eorZpX), (0x56, .byte .lsrZpX),
   (0x58, .bare .cli), (0x59, .word .eorAbsY), (0x5D, .word .eorAbsX), (0x5E, .word .lsrAbsX)]

/-- Row 6x of the opcode map (R84). -/
def opcodeRow6 : List (Byte × Form) :=
  [(0x60, .bare .rts), (0x61, .byte .adcIndX), (0x65, .byte .adcZp), (0x66, .byte .rorZp),
   (0x68, .bare .pla), (0x69, .byte .adcImm), (0x6A, .bare .rorAcc), (0x6C, .word .jmpInd),
   (0x6D, .word .adcAbs), (0x6E, .word .rorAbs)]

/-- Row 7x of the opcode map (R84). -/
def opcodeRow7 : List (Byte × Form) :=
  [(0x70, .byte .bvs), (0x71, .byte .adcIndY), (0x75, .byte .adcZpX), (0x76, .byte .rorZpX),
   (0x78, .bare .sei), (0x79, .word .adcAbsY), (0x7D, .word .adcAbsX), (0x7E, .word .rorAbsX)]

/-- Row 8x of the opcode map (R84). -/
def opcodeRow8 : List (Byte × Form) :=
  [(0x81, .byte .staIndX), (0x84, .byte .styZp), (0x85, .byte .staZp), (0x86, .byte .stxZp),
   (0x88, .bare .dey), (0x8A, .bare .txa), (0x8C, .word .styAbs), (0x8D, .word .staAbs),
   (0x8E, .word .stxAbs)]

/-- Row 9x of the opcode map (R84). -/
def opcodeRow9 : List (Byte × Form) :=
  [(0x90, .byte .bcc), (0x91, .byte .staIndY), (0x94, .byte .styZpX), (0x95, .byte .staZpX),
   (0x96, .byte .stxZpY), (0x98, .bare .tya), (0x99, .word .staAbsY), (0x9A, .bare .txs),
   (0x9D, .word .staAbsX)]

/-- Row Ax of the opcode map (R84). -/
def opcodeRowA : List (Byte × Form) :=
  [(0xA0, .byte .ldyImm), (0xA1, .byte .ldaIndX), (0xA2, .byte .ldxImm), (0xA4, .byte .ldyZp),
   (0xA5, .byte .ldaZp), (0xA6, .byte .ldxZp), (0xA8, .bare .tay), (0xA9, .byte .ldaImm),
   (0xAA, .bare .tax), (0xAC, .word .ldyAbs), (0xAD, .word .ldaAbs), (0xAE, .word .ldxAbs)]

/-- Row Bx of the opcode map (R84). -/
def opcodeRowB : List (Byte × Form) :=
  [(0xB0, .byte .bcs), (0xB1, .byte .ldaIndY), (0xB4, .byte .ldyZpX), (0xB5, .byte .ldaZpX),
   (0xB6, .byte .ldxZpY), (0xB8, .bare .clv), (0xB9, .word .ldaAbsY), (0xBA, .bare .tsx),
   (0xBC, .word .ldyAbsX), (0xBD, .word .ldaAbsX), (0xBE, .word .ldxAbsY)]

/-- Row Cx of the opcode map (R84). -/
def opcodeRowC : List (Byte × Form) :=
  [(0xC0, .byte .cpyImm), (0xC1, .byte .cmpIndX), (0xC4, .byte .cpyZp), (0xC5, .byte .cmpZp),
   (0xC6, .byte .decZp), (0xC8, .bare .iny), (0xC9, .byte .cmpImm), (0xCA, .bare .dex),
   (0xCC, .word .cpyAbs), (0xCD, .word .cmpAbs), (0xCE, .word .decAbs)]

/-- Row Dx of the opcode map (R84). -/
def opcodeRowD : List (Byte × Form) :=
  [(0xD0, .byte .bne), (0xD1, .byte .cmpIndY), (0xD5, .byte .cmpZpX), (0xD6, .byte .decZpX),
   (0xD8, .bare .cld), (0xD9, .word .cmpAbsY), (0xDD, .word .cmpAbsX), (0xDE, .word .decAbsX)]

/-- Row Ex of the opcode map (R84). -/
def opcodeRowE : List (Byte × Form) :=
  [(0xE0, .byte .cpxImm), (0xE1, .byte .sbcIndX), (0xE4, .byte .cpxZp), (0xE5, .byte .sbcZp),
   (0xE6, .byte .incZp), (0xE8, .bare .inx), (0xE9, .byte .sbcImm), (0xEA, .bare .nop),
   (0xEC, .word .cpxAbs), (0xED, .word .sbcAbs), (0xEE, .word .incAbs)]

/-- Row Fx of the opcode map (R84). -/
def opcodeRowF : List (Byte × Form) :=
  [(0xF0, .byte .beq), (0xF1, .byte .sbcIndY), (0xF5, .byte .sbcZpX), (0xF6, .byte .incZpX),
   (0xF8, .bare .sed), (0xF9, .word .sbcAbsY), (0xFD, .word .sbcAbsX), (0xFE, .word .incAbsX)]

/-- The whole opcode map: 151 entries (R83, R84). -/
def opcodeRows : List (Byte × Form) :=
  opcodeRow0 ++ opcodeRow1 ++ opcodeRow2 ++ opcodeRow3 ++ opcodeRow4 ++ opcodeRow5 ++ opcodeRow6
    ++ opcodeRow7 ++ opcodeRow8 ++ opcodeRow9 ++ opcodeRowA ++ opcodeRowB ++ opcodeRowC
    ++ opcodeRowD ++ opcodeRowE ++ opcodeRowF

/-- The first entry of a list of rows for an opcode. -/
def lookupForm (op : Byte) : List (Byte × Form) → Option Form
  | [] => none
  | (k, f) :: rest => if k = op then some f else lookupForm op rest

/-- The dispatch of an opcode byte (R83); none for the 105 undefined bytes (R86). -/
def opcodeMap (op : Byte) : Option Form := lookupForm op opcodeRows

/-- Why bytes are no instruction. -/
inductive DecodeError where
  /-- There is no opcode byte. -/
  | noBytes
  /-- The opcode is one of the 105 undefined bytes (R86). -/
  | undefinedOpcode (op : Byte)
  /-- The opcode is defined and its operand bytes are not all there. -/
  | missingOperand (op : Byte)
deriving DecidableEq, Repr

/-- An instruction from its bytes, with the bytes after it (R80, R82, R87). -/
def decode : List Byte → Except DecodeError (Instr × List Byte)
  | [] => .error .noBytes
  | op :: rest =>
    match opcodeMap op with
    | none => .error (.undefinedOpcode op)
    | some (.bare i) => .ok (i, rest)
    | some (.byte f) =>
      match rest with
      | b1 :: rest' => .ok (f b1, rest')
      | [] => .error (.missingOperand op)
    | some (.word f) =>
      match rest with
      | b1 :: b2 :: rest' => .ok (f (wordOf b2 b1), rest')
      | _ => .error (.missingOperand op)

/-- The bytes of a one-byte instruction. -/
def encBare (op : Byte) : List Byte := [op]

/-- The bytes of an instruction with a byte operand. -/
def encByte (op b1 : Byte) : List Byte := [op, b1]

/-- The bytes of an instruction with a 16-bit operand, low byte first (R87). -/
def encWord (op : Byte) (w : Word) : List Byte := [op, loByte w, hiByte w]

/-- The bytes of an instruction: the Encoding lines of R140 to R247 and the map R84. -/
def encode : Instr → List Byte
  | .ldaImm m => encByte 0xA9 m
  | .ldaZp b => encByte 0xA5 b
  | .ldaZpX b => encByte 0xB5 b
  | .ldaAbs w => encWord 0xAD w
  | .ldaAbsX w => encWord 0xBD w
  | .ldaAbsY w => encWord 0xB9 w
  | .ldaIndX p => encByte 0xA1 p
  | .ldaIndY p => encByte 0xB1 p
  | .ldxImm m => encByte 0xA2 m
  | .ldxZp b => encByte 0xA6 b
  | .ldxZpY b => encByte 0xB6 b
  | .ldxAbs w => encWord 0xAE w
  | .ldxAbsY w => encWord 0xBE w
  | .ldyImm m => encByte 0xA0 m
  | .ldyZp b => encByte 0xA4 b
  | .ldyZpX b => encByte 0xB4 b
  | .ldyAbs w => encWord 0xAC w
  | .ldyAbsX w => encWord 0xBC w
  | .staZp b => encByte 0x85 b
  | .staZpX b => encByte 0x95 b
  | .staAbs w => encWord 0x8D w
  | .staAbsX w => encWord 0x9D w
  | .staAbsY w => encWord 0x99 w
  | .staIndX p => encByte 0x81 p
  | .staIndY p => encByte 0x91 p
  | .stxZp b => encByte 0x86 b
  | .stxZpY b => encByte 0x96 b
  | .stxAbs w => encWord 0x8E w
  | .styZp b => encByte 0x84 b
  | .styZpX b => encByte 0x94 b
  | .styAbs w => encWord 0x8C w
  | .tax => encBare 0xAA
  | .tay => encBare 0xA8
  | .tsx => encBare 0xBA
  | .txa => encBare 0x8A
  | .txs => encBare 0x9A
  | .tya => encBare 0x98
  | .adcImm m => encByte 0x69 m
  | .adcZp b => encByte 0x65 b
  | .adcZpX b => encByte 0x75 b
  | .adcAbs w => encWord 0x6D w
  | .adcAbsX w => encWord 0x7D w
  | .adcAbsY w => encWord 0x79 w
  | .adcIndX p => encByte 0x61 p
  | .adcIndY p => encByte 0x71 p
  | .sbcImm m => encByte 0xE9 m
  | .sbcZp b => encByte 0xE5 b
  | .sbcZpX b => encByte 0xF5 b
  | .sbcAbs w => encWord 0xED w
  | .sbcAbsX w => encWord 0xFD w
  | .sbcAbsY w => encWord 0xF9 w
  | .sbcIndX p => encByte 0xE1 p
  | .sbcIndY p => encByte 0xF1 p
  | .andImm m => encByte 0x29 m
  | .andZp b => encByte 0x25 b
  | .andZpX b => encByte 0x35 b
  | .andAbs w => encWord 0x2D w
  | .andAbsX w => encWord 0x3D w
  | .andAbsY w => encWord 0x39 w
  | .andIndX p => encByte 0x21 p
  | .andIndY p => encByte 0x31 p
  | .oraImm m => encByte 0x09 m
  | .oraZp b => encByte 0x05 b
  | .oraZpX b => encByte 0x15 b
  | .oraAbs w => encWord 0x0D w
  | .oraAbsX w => encWord 0x1D w
  | .oraAbsY w => encWord 0x19 w
  | .oraIndX p => encByte 0x01 p
  | .oraIndY p => encByte 0x11 p
  | .eorImm m => encByte 0x49 m
  | .eorZp b => encByte 0x45 b
  | .eorZpX b => encByte 0x55 b
  | .eorAbs w => encWord 0x4D w
  | .eorAbsX w => encWord 0x5D w
  | .eorAbsY w => encWord 0x59 w
  | .eorIndX p => encByte 0x41 p
  | .eorIndY p => encByte 0x51 p
  | .cmpImm m => encByte 0xC9 m
  | .cmpZp b => encByte 0xC5 b
  | .cmpZpX b => encByte 0xD5 b
  | .cmpAbs w => encWord 0xCD w
  | .cmpAbsX w => encWord 0xDD w
  | .cmpAbsY w => encWord 0xD9 w
  | .cmpIndX p => encByte 0xC1 p
  | .cmpIndY p => encByte 0xD1 p
  | .cpxImm m => encByte 0xE0 m
  | .cpxZp b => encByte 0xE4 b
  | .cpxAbs w => encWord 0xEC w
  | .cpyImm m => encByte 0xC0 m
  | .cpyZp b => encByte 0xC4 b
  | .cpyAbs w => encWord 0xCC w
  | .bitZp b => encByte 0x24 b
  | .bitAbs w => encWord 0x2C w
  | .aslAcc => encBare 0x0A
  | .aslZp b => encByte 0x06 b
  | .aslZpX b => encByte 0x16 b
  | .aslAbs w => encWord 0x0E w
  | .aslAbsX w => encWord 0x1E w
  | .lsrAcc => encBare 0x4A
  | .lsrZp b => encByte 0x46 b
  | .lsrZpX b => encByte 0x56 b
  | .lsrAbs w => encWord 0x4E w
  | .lsrAbsX w => encWord 0x5E w
  | .rolAcc => encBare 0x2A
  | .rolZp b => encByte 0x26 b
  | .rolZpX b => encByte 0x36 b
  | .rolAbs w => encWord 0x2E w
  | .rolAbsX w => encWord 0x3E w
  | .rorAcc => encBare 0x6A
  | .rorZp b => encByte 0x66 b
  | .rorZpX b => encByte 0x76 b
  | .rorAbs w => encWord 0x6E w
  | .rorAbsX w => encWord 0x7E w
  | .incZp b => encByte 0xE6 b
  | .incZpX b => encByte 0xF6 b
  | .incAbs w => encWord 0xEE w
  | .incAbsX w => encWord 0xFE w
  | .decZp b => encByte 0xC6 b
  | .decZpX b => encByte 0xD6 b
  | .decAbs w => encWord 0xCE w
  | .decAbsX w => encWord 0xDE w
  | .inx => encBare 0xE8
  | .iny => encBare 0xC8
  | .dex => encBare 0xCA
  | .dey => encBare 0x88
  | .bcc d => encByte 0x90 d
  | .bcs d => encByte 0xB0 d
  | .beq d => encByte 0xF0 d
  | .bne d => encByte 0xD0 d
  | .bmi d => encByte 0x30 d
  | .bpl d => encByte 0x10 d
  | .bvc d => encByte 0x50 d
  | .bvs d => encByte 0x70 d
  | .jmpAbs w => encWord 0x4C w
  | .jmpInd w => encWord 0x6C w
  | .jsr w => encWord 0x20 w
  | .rts => encBare 0x60
  | .pha => encBare 0x48
  | .pla => encBare 0x68
  | .php => encBare 0x08
  | .plp => encBare 0x28
  | .brk => encBare 0x00
  | .rti => encBare 0x40
  | .sec => encBare 0x38
  | .clc => encBare 0x18
  | .sei => encBare 0x78
  | .cli => encBare 0x58
  | .sed => encBare 0xF8
  | .cld => encBare 0xD8
  | .clv => encBare 0xB8
  | .nop => encBare 0xEA

/-- An instruction as its mnemonic, mode and operand number: the other reading of its row of R84. -/
def Instr.raw : Instr → RawInstr
  | .ldaImm m => ⟨.lda, .immediate, m.toNat⟩
  | .ldaZp b => ⟨.lda, .zeroPage, b.toNat⟩
  | .ldaZpX b => ⟨.lda, .zeroPageX, b.toNat⟩
  | .ldaAbs w => ⟨.lda, .absolute, w.toNat⟩
  | .ldaAbsX w => ⟨.lda, .absoluteX, w.toNat⟩
  | .ldaAbsY w => ⟨.lda, .absoluteY, w.toNat⟩
  | .ldaIndX p => ⟨.lda, .indirectX, p.toNat⟩
  | .ldaIndY p => ⟨.lda, .indirectY, p.toNat⟩
  | .ldxImm m => ⟨.ldx, .immediate, m.toNat⟩
  | .ldxZp b => ⟨.ldx, .zeroPage, b.toNat⟩
  | .ldxZpY b => ⟨.ldx, .zeroPageY, b.toNat⟩
  | .ldxAbs w => ⟨.ldx, .absolute, w.toNat⟩
  | .ldxAbsY w => ⟨.ldx, .absoluteY, w.toNat⟩
  | .ldyImm m => ⟨.ldy, .immediate, m.toNat⟩
  | .ldyZp b => ⟨.ldy, .zeroPage, b.toNat⟩
  | .ldyZpX b => ⟨.ldy, .zeroPageX, b.toNat⟩
  | .ldyAbs w => ⟨.ldy, .absolute, w.toNat⟩
  | .ldyAbsX w => ⟨.ldy, .absoluteX, w.toNat⟩
  | .staZp b => ⟨.sta, .zeroPage, b.toNat⟩
  | .staZpX b => ⟨.sta, .zeroPageX, b.toNat⟩
  | .staAbs w => ⟨.sta, .absolute, w.toNat⟩
  | .staAbsX w => ⟨.sta, .absoluteX, w.toNat⟩
  | .staAbsY w => ⟨.sta, .absoluteY, w.toNat⟩
  | .staIndX p => ⟨.sta, .indirectX, p.toNat⟩
  | .staIndY p => ⟨.sta, .indirectY, p.toNat⟩
  | .stxZp b => ⟨.stx, .zeroPage, b.toNat⟩
  | .stxZpY b => ⟨.stx, .zeroPageY, b.toNat⟩
  | .stxAbs w => ⟨.stx, .absolute, w.toNat⟩
  | .styZp b => ⟨.sty, .zeroPage, b.toNat⟩
  | .styZpX b => ⟨.sty, .zeroPageX, b.toNat⟩
  | .styAbs w => ⟨.sty, .absolute, w.toNat⟩
  | .tax => ⟨.tax, .implied, 0⟩
  | .tay => ⟨.tay, .implied, 0⟩
  | .tsx => ⟨.tsx, .implied, 0⟩
  | .txa => ⟨.txa, .implied, 0⟩
  | .txs => ⟨.txs, .implied, 0⟩
  | .tya => ⟨.tya, .implied, 0⟩
  | .adcImm m => ⟨.adc, .immediate, m.toNat⟩
  | .adcZp b => ⟨.adc, .zeroPage, b.toNat⟩
  | .adcZpX b => ⟨.adc, .zeroPageX, b.toNat⟩
  | .adcAbs w => ⟨.adc, .absolute, w.toNat⟩
  | .adcAbsX w => ⟨.adc, .absoluteX, w.toNat⟩
  | .adcAbsY w => ⟨.adc, .absoluteY, w.toNat⟩
  | .adcIndX p => ⟨.adc, .indirectX, p.toNat⟩
  | .adcIndY p => ⟨.adc, .indirectY, p.toNat⟩
  | .sbcImm m => ⟨.sbc, .immediate, m.toNat⟩
  | .sbcZp b => ⟨.sbc, .zeroPage, b.toNat⟩
  | .sbcZpX b => ⟨.sbc, .zeroPageX, b.toNat⟩
  | .sbcAbs w => ⟨.sbc, .absolute, w.toNat⟩
  | .sbcAbsX w => ⟨.sbc, .absoluteX, w.toNat⟩
  | .sbcAbsY w => ⟨.sbc, .absoluteY, w.toNat⟩
  | .sbcIndX p => ⟨.sbc, .indirectX, p.toNat⟩
  | .sbcIndY p => ⟨.sbc, .indirectY, p.toNat⟩
  | .andImm m => ⟨.and, .immediate, m.toNat⟩
  | .andZp b => ⟨.and, .zeroPage, b.toNat⟩
  | .andZpX b => ⟨.and, .zeroPageX, b.toNat⟩
  | .andAbs w => ⟨.and, .absolute, w.toNat⟩
  | .andAbsX w => ⟨.and, .absoluteX, w.toNat⟩
  | .andAbsY w => ⟨.and, .absoluteY, w.toNat⟩
  | .andIndX p => ⟨.and, .indirectX, p.toNat⟩
  | .andIndY p => ⟨.and, .indirectY, p.toNat⟩
  | .oraImm m => ⟨.ora, .immediate, m.toNat⟩
  | .oraZp b => ⟨.ora, .zeroPage, b.toNat⟩
  | .oraZpX b => ⟨.ora, .zeroPageX, b.toNat⟩
  | .oraAbs w => ⟨.ora, .absolute, w.toNat⟩
  | .oraAbsX w => ⟨.ora, .absoluteX, w.toNat⟩
  | .oraAbsY w => ⟨.ora, .absoluteY, w.toNat⟩
  | .oraIndX p => ⟨.ora, .indirectX, p.toNat⟩
  | .oraIndY p => ⟨.ora, .indirectY, p.toNat⟩
  | .eorImm m => ⟨.eor, .immediate, m.toNat⟩
  | .eorZp b => ⟨.eor, .zeroPage, b.toNat⟩
  | .eorZpX b => ⟨.eor, .zeroPageX, b.toNat⟩
  | .eorAbs w => ⟨.eor, .absolute, w.toNat⟩
  | .eorAbsX w => ⟨.eor, .absoluteX, w.toNat⟩
  | .eorAbsY w => ⟨.eor, .absoluteY, w.toNat⟩
  | .eorIndX p => ⟨.eor, .indirectX, p.toNat⟩
  | .eorIndY p => ⟨.eor, .indirectY, p.toNat⟩
  | .cmpImm m => ⟨.cmp, .immediate, m.toNat⟩
  | .cmpZp b => ⟨.cmp, .zeroPage, b.toNat⟩
  | .cmpZpX b => ⟨.cmp, .zeroPageX, b.toNat⟩
  | .cmpAbs w => ⟨.cmp, .absolute, w.toNat⟩
  | .cmpAbsX w => ⟨.cmp, .absoluteX, w.toNat⟩
  | .cmpAbsY w => ⟨.cmp, .absoluteY, w.toNat⟩
  | .cmpIndX p => ⟨.cmp, .indirectX, p.toNat⟩
  | .cmpIndY p => ⟨.cmp, .indirectY, p.toNat⟩
  | .cpxImm m => ⟨.cpx, .immediate, m.toNat⟩
  | .cpxZp b => ⟨.cpx, .zeroPage, b.toNat⟩
  | .cpxAbs w => ⟨.cpx, .absolute, w.toNat⟩
  | .cpyImm m => ⟨.cpy, .immediate, m.toNat⟩
  | .cpyZp b => ⟨.cpy, .zeroPage, b.toNat⟩
  | .cpyAbs w => ⟨.cpy, .absolute, w.toNat⟩
  | .bitZp b => ⟨.bit, .zeroPage, b.toNat⟩
  | .bitAbs w => ⟨.bit, .absolute, w.toNat⟩
  | .aslAcc => ⟨.asl, .accumulator, 0⟩
  | .aslZp b => ⟨.asl, .zeroPage, b.toNat⟩
  | .aslZpX b => ⟨.asl, .zeroPageX, b.toNat⟩
  | .aslAbs w => ⟨.asl, .absolute, w.toNat⟩
  | .aslAbsX w => ⟨.asl, .absoluteX, w.toNat⟩
  | .lsrAcc => ⟨.lsr, .accumulator, 0⟩
  | .lsrZp b => ⟨.lsr, .zeroPage, b.toNat⟩
  | .lsrZpX b => ⟨.lsr, .zeroPageX, b.toNat⟩
  | .lsrAbs w => ⟨.lsr, .absolute, w.toNat⟩
  | .lsrAbsX w => ⟨.lsr, .absoluteX, w.toNat⟩
  | .rolAcc => ⟨.rol, .accumulator, 0⟩
  | .rolZp b => ⟨.rol, .zeroPage, b.toNat⟩
  | .rolZpX b => ⟨.rol, .zeroPageX, b.toNat⟩
  | .rolAbs w => ⟨.rol, .absolute, w.toNat⟩
  | .rolAbsX w => ⟨.rol, .absoluteX, w.toNat⟩
  | .rorAcc => ⟨.ror, .accumulator, 0⟩
  | .rorZp b => ⟨.ror, .zeroPage, b.toNat⟩
  | .rorZpX b => ⟨.ror, .zeroPageX, b.toNat⟩
  | .rorAbs w => ⟨.ror, .absolute, w.toNat⟩
  | .rorAbsX w => ⟨.ror, .absoluteX, w.toNat⟩
  | .incZp b => ⟨.inc, .zeroPage, b.toNat⟩
  | .incZpX b => ⟨.inc, .zeroPageX, b.toNat⟩
  | .incAbs w => ⟨.inc, .absolute, w.toNat⟩
  | .incAbsX w => ⟨.inc, .absoluteX, w.toNat⟩
  | .decZp b => ⟨.dec, .zeroPage, b.toNat⟩
  | .decZpX b => ⟨.dec, .zeroPageX, b.toNat⟩
  | .decAbs w => ⟨.dec, .absolute, w.toNat⟩
  | .decAbsX w => ⟨.dec, .absoluteX, w.toNat⟩
  | .inx => ⟨.inx, .implied, 0⟩
  | .iny => ⟨.iny, .implied, 0⟩
  | .dex => ⟨.dex, .implied, 0⟩
  | .dey => ⟨.dey, .implied, 0⟩
  | .bcc d => ⟨.bcc, .relative, d.toNat⟩
  | .bcs d => ⟨.bcs, .relative, d.toNat⟩
  | .beq d => ⟨.beq, .relative, d.toNat⟩
  | .bne d => ⟨.bne, .relative, d.toNat⟩
  | .bmi d => ⟨.bmi, .relative, d.toNat⟩
  | .bpl d => ⟨.bpl, .relative, d.toNat⟩
  | .bvc d => ⟨.bvc, .relative, d.toNat⟩
  | .bvs d => ⟨.bvs, .relative, d.toNat⟩
  | .jmpAbs w => ⟨.jmp, .absolute, w.toNat⟩
  | .jmpInd w => ⟨.jmp, .indirect, w.toNat⟩
  | .jsr w => ⟨.jsr, .absolute, w.toNat⟩
  | .rts => ⟨.rts, .implied, 0⟩
  | .pha => ⟨.pha, .implied, 0⟩
  | .pla => ⟨.pla, .implied, 0⟩
  | .php => ⟨.php, .implied, 0⟩
  | .plp => ⟨.plp, .implied, 0⟩
  | .brk => ⟨.brk, .implied, 0⟩
  | .rti => ⟨.rti, .implied, 0⟩
  | .sec => ⟨.sec, .implied, 0⟩
  | .clc => ⟨.clc, .implied, 0⟩
  | .sei => ⟨.sei, .implied, 0⟩
  | .cli => ⟨.cli, .implied, 0⟩
  | .sed => ⟨.sed, .implied, 0⟩
  | .cld => ⟨.cld, .implied, 0⟩
  | .clv => ⟨.clv, .implied, 0⟩
  | .nop => ⟨.nop, .implied, 0⟩

/-- The mnemonic of an instruction. -/
def Instr.mnemonic (i : Instr) : Mnemonic := i.raw.mnemonic

/-- The addressing mode of an instruction. -/
def Instr.mode (i : Instr) : AddrMode := i.raw.mode

/-- Its length in bytes, opcode included (R81). -/
def Instr.length (i : Instr) : Nat := 1 + i.mode.operandBytes

/-- An instruction is well formed when its raw reading is: every `Instr` is, since its operands carry
their widths. -/
def Instr.wellFormed (i : Instr) : Bool := i.raw.wellFormed

/-- The first three bytes of an instruction whose bits are `w`, of which the lowest `nbits` count and
the others are 0; bit 0 is the least significant bit of the first byte. -/
def tableBytes (nbits w : Nat) : List Byte :=
  [BitVec.ofNat 8 (w % 2 ^ nbits), BitVec.ofNat 8 (w % 2 ^ nbits / 256),
   BitVec.ofNat 8 (w % 2 ^ nbits / 65536)]

/-- The instruction the decoder reads from a row's bits of spec/opcode_table.json; none where it
refuses. -/
def decodeTableWord (nbits w : Nat) : Option Instr :=
  match decode (tableBytes nbits w) with
  | .ok (i, _) => some i
  | .error _ => none

end Sys2Proof
end

