-- ==== Sys2Proof/Config.lean ====
section
/-! DEFINITION. The one open parameter of the hardware, LAUNCH_DEFAULTS (R290, R296, D15). The spec
decides every other point, so the core has no further configuration and no free value. -/

namespace Sys2Proof

/-- LAUNCH_DEFAULTS: the launch value of each register and flag that the harness leaves out (R290). -/
structure LaunchDefaults where
  pc : Word
  a  : Byte
  x  : Byte
  y  : Byte
  sp : Byte
  c  : Bool
  z  : Bool
  i  : Bool
  d  : Bool
  b  : Bool
  v  : Bool
  n  : Bool
deriving DecidableEq, Repr

/-- All registers and flags 0, the fixed default R290 allows a model to take.
DESIGN CHOICE, log entry 1, unsafe: the spec leaves the parameter open. -/
def Config.launchDefaults : LaunchDefaults :=
  { pc := 0, a := 0, x := 0, y := 0, sp := 0, c := false, z := false, i := false, d := false,
    b := false, v := false, n := false }

end Sys2Proof
end

