-- ==== Sys2Proof/Machine/Memory.lean ====
section
/-! DEFINITION. The memory component (R50): 65536 bytes, zero-filled, held as the list of its non-zero
bytes in one canonical form, and the byte-order helpers of R11 and R53 over it. -/

namespace Sys2Proof.Machine

/-- Memory as (address, byte) pairs. In canonical form the addresses strictly rise below 65536 and no
pair holds the byte an unlisted address reads as (log entry 5). -/
structure Memory where
  cells : List Host.Cell
deriving DecidableEq, Repr

/-- What an address that is not listed reads as: the zero fill of R50. -/
def unlistedByte : Byte := 0#8

/-- The byte listed first for an address, or the zero fill. -/
def lookupCell : List Host.Cell → Nat → Byte
  | [], _ => unlistedByte
  | (k, v) :: rest, a => if k = a then v else lookupCell rest a

/-- The cells without an address. -/
def eraseCell (cells : List Host.Cell) (a : Nat) : List Host.Cell :=
  cells.filter (fun cell => !decide (cell.1 = a))

/-- The cells with an address set, at its place in the rising order. -/
def insertCell : List Host.Cell → Nat → Byte → List Host.Cell
  | [], a, v => [(a, v)]
  | (k, u) :: rest, a, v =>
    if a < k then (a, v) :: (k, u) :: rest
    else if a = k then (a, v) :: rest
    else (k, u) :: insertCell rest a v

/-- Addresses rise strictly from `lo`, stay below 65536, and no listed byte is the zero fill. -/
def cellsOk : Nat → List Host.Cell → Bool
  | _, [] => true
  | lo, (k, v) :: rest =>
    decide (lo ≤ k) && decide (k < 65536) && !decide (v = unlistedByte) && cellsOk (k + 1) rest

/-- The canonical form. -/
def Memory.wf (m : Memory) : Bool := cellsOk 0 m.cells

/-- Zero-filled memory: the allocation of R50, and what memory `reset()` leaves. -/
def Memory.zero : Memory := ⟨[]⟩

/-- `MemRead(a, 1)` (R50, R56). -/
def Memory.read (m : Memory) (a : Word) : Byte := lookupCell m.cells a.toNat

/-- `MemWrite(a, 1, v)` (R50, R56): writing the zero fill removes the cell. -/
def Memory.write (m : Memory) (a : Word) (v : Byte) : Memory :=
  ⟨if v = unlistedByte then eraseCell m.cells a.toNat else insertCell m.cells a.toNat v⟩

/-- Writes of a memory image, pair by pair in order (R292). -/
def Memory.load (m : Memory) : List (Word × Byte) → Memory
  | [] => m
  | (a, v) :: rest => (m.write a v).load rest

/-- Bytes written at increasing addresses, wrapping modulo 65536 (R290). -/
def Memory.place (m : Memory) (a : Word) : List Byte → Memory
  | [] => m
  | v :: rest => (m.write a v).place (a + 1#16) rest

/-- `MemRead16(a)`: little-endian, carry into the next page (R11, R51). -/
def Memory.read16 (m : Memory) (a : Word) : Word := wordOf (m.read (a + 1#16)) (m.read a)

/-- `MemRead16zp(p)`: little-endian, wrapping inside page zero (R11, R53). -/
def Memory.read16zp (m : Memory) (p : Byte) : Word :=
  wordOf (m.read (zext16 (p + 1#8))) (m.read (zext16 p))

/-- The JMP indirect pointer read: the high byte comes from the pointer's own page (R53, R119). -/
def Memory.read16page (m : Memory) (ptr : Word) : Word :=
  wordOf (m.read (wordOf (hiByte ptr) (loByte ptr + 1#8))) (m.read ptr)

end Sys2Proof.Machine
end

