-- ==== Sys2Proof/Machine/State.lean ====
section
/-! DEFINITION. The state of the core (R20, R27, R32 to R34, R38, R50), the state after reset, and the
reasons a step can stop. -/

namespace Sys2Proof.Machine

/-- The seven status flags (R27). P is the packed view of them (R28); bit 5 has no storage (D5). -/
structure Flags where
  c : Bool
  z : Bool
  i : Bool
  d : Bool
  b : Bool
  v : Bool
  n : Bool
deriving DecidableEq, Repr

/-- Every piece of state the spec gives the core (R36, R38). -/
structure State where
  /-- A, the accumulator (R21). -/
  a : Byte
  /-- X (R22). -/
  x : Byte
  /-- Y (R22). -/
  y : Byte
  /-- SP; the stack is at 0x0100 + SP (R23). -/
  sp : Byte
  /-- PC (R24), one 16-bit value (R25). -/
  pc : Word
  /-- C, Z, I, D, B, V, N (R27). -/
  flags : Flags
  /-- The 65536 bytes of memory (R50). -/
  mem : Memory
  /-- The cycle counter, unbounded (R32, D17). -/
  cycles : Nat
  /-- `irq_line`, held by the host and only read by the core (R33). -/
  irqLine : Bool
  /-- `nmi_pending`, set by the host and cleared by the core on entry (R34). -/
  nmiPending : Bool
deriving DecidableEq, Repr

/-- The hardware interrupt sources (R262). -/
inductive Interrupt where
  | nmi
  | irq
deriving DecidableEq, Repr

/-- Why a step stops with a fault. -/
inductive Fault where
  /-- UndefinedInstruction (R260, R261), raised by the fetch of `step` for the 105 undefined opcode
  bytes (R86): the opcode byte, the opcode's address, and the state after the fault. Safe: the spec's own
  fault; the state it leaves is carried, because the outcome has no other place for it (log entry 4). -/
  | undefinedInstruction (op : Byte) (opaddr : Word) (after : State)
deriving DecidableEq, Repr

/-- Why an instruction is refused. -/
inductive Refusal where
  /-- Raised by an arm of `exec` whose instruction has no meaning yet; no arm raises it in this model.
  Safe: nothing is claimed of such an instruction. -/
  | notModelled (mnemonic : String)
deriving DecidableEq, Repr

/-- What an instruction answers. -/
abbrev Result := Host.Outcome State Fault Refusal

/-- The state right after reset: the reset operation of R293 applied to the launch of R290 with nothing
loaded and LAUNCH_DEFAULTS all 0. R293 fixes I, B, `nmi_pending`, PC (the reset vector in zero-filled
memory, R294), SP as its launch value less 3, and 7 cycles. A, X, Y, C, Z, D, V, N and the launch value of
SP are the DESIGN CHOICE of log entry 1 (unsafe). -/
def State.reset : State :=
  { a := Config.launchDefaults.a
    x := Config.launchDefaults.x
    y := Config.launchDefaults.y
    sp := Config.launchDefaults.sp - 3#8
    pc := 0#16
    flags :=
      { c := Config.launchDefaults.c, z := Config.launchDefaults.z, i := true
        d := Config.launchDefaults.d, b := true, v := Config.launchDefaults.v
        n := Config.launchDefaults.n }
    mem := Memory.zero
    cycles := 7
    irqLine := false
    nmiPending := false }

end Sys2Proof.Machine
end

