-- ==== Sys2Proof/Machine/Flags.lean ====
section
/-! DEFINITION. The packed status byte (R28, R29), the flag rules, and the ALU functions with the flags
they compute (R160 to R163, R172, R191 to R196). -/

namespace Sys2Proof.Machine

/-- `PackP(b4)`: bit 5 is written as 1 (R28). -/
def Flags.pack (f : Flags) (b4 : Bool) : Byte :=
  BitVec.ofNat 8 (f.n.toNat * 128 + f.v.toNat * 64 + 32 + b4.toNat * 16 + f.d.toNat * 8
    + f.i.toNat * 4 + f.z.toNat * 2 + f.c.toNat)

/-- The flags loaded from a pulled byte; B and bit 5 are ignored (R29). -/
def Flags.unpack (f : Flags) (m : Byte) : Flags :=
  { f with c := bit m 0, z := bit m 1, i := bit m 2, d := bit m 3, v := bit m 6, n := bit m 7 }

/-- `SetZN(v)` (R11). -/
def Flags.setZN (f : Flags) (v : Byte) : Flags := { f with z := decide (v = 0#8), n := bit v 7 }

/-- A byte result with the four arithmetic flags. -/
structure AluResult where
  value : Byte
  c : Bool
  z : Bool
  v : Bool
  n : Bool
deriving DecidableEq, Repr

/-- C, Z, V and N taken from an arithmetic result. -/
def Flags.setAlu (f : Flags) (r : AluResult) : Flags :=
  { f with c := r.c, z := r.z, v := r.v, n := r.n }

/-- `AddBin(a, b, c)` (R160). -/
def addBin (a b : Byte) (c : Bool) : AluResult :=
  let s := a.toNat + b.toNat + c.toNat
  let r : Byte := BitVec.ofNat 8 s
  { value := r
    c := decide (255 < s)
    z := decide (r = 0#8)
    v := bit ((a ^^^ r) &&& (b ^^^ r)) 7
    n := bit r 7 }

/-- The low digit sum of R161 with its adjustment. -/
def addDecLow (a b : Byte) (c : Bool) : Nat :=
  let lo := a.toNat % 16 + b.toNat % 16 + c.toNat
  if 0x0A ≤ lo then (lo + 0x06) % 16 + 0x10 else lo

/-- `t` of R161 before the high-digit adjustment. -/
def addDecMid (a b : Byte) (c : Bool) : Nat :=
  a.toNat / 16 * 16 + b.toNat / 16 * 16 + addDecLow a b c

/-- `t` of R161 after the high-digit adjustment. -/
def addDecTop (a b : Byte) (c : Bool) : Nat :=
  let t := addDecMid a b c
  if 0xA0 ≤ t then t + 0x60 else t

/-- `AddDec(a, b, c)` (R161): N and V from the intermediate sum, Z from the binary sum. -/
def addDec (a b : Byte) (c : Bool) : AluResult :=
  let t : Byte := BitVec.ofNat 8 (addDecMid a b c)
  { value := BitVec.ofNat 8 (addDecTop a b c)
    c := decide (0x100 ≤ addDecTop a b c)
    z := decide ((a.toNat + b.toNat + c.toNat) % 256 = 0)
    v := bit (a ^^^ t) 7 && !bit (a ^^^ b) 7
    n := bit t 7 }

/-- The low digit difference of R162 with its adjustment, an integer that may be negative. -/
def subDecLow (a b : Byte) (c : Bool) : Int :=
  let lo : Int := (a.toNat % 16 : Nat) - (b.toNat % 16 : Nat) + c.toNat - 1
  if lo < 0 then (lo - 0x06) % 16 - 0x10 else lo

/-- `t` of R162 after the high-digit adjustment. -/
def subDecTop (a b : Byte) (c : Bool) : Int :=
  let t : Int := (a.toNat / 16 * 16 : Nat) - (b.toNat / 16 * 16 : Nat) + subDecLow a b c
  if t < 0 then t - 0x60 else t

/-- `SubDec(a, b, c)` (R162): the flags are those of the binary subtraction `AddBin(a, ~b, c)`. -/
def subDec (a b : Byte) (c : Bool) : AluResult :=
  { addBin a (~~~b) c with value := BitVec.ofInt 8 (subDecTop a b c) }

/-- The ADC result: binary or decimal by D (R164). -/
def adcResult (f : Flags) (a m : Byte) : AluResult :=
  if f.d then addDec a m f.c else addBin a m f.c

/-- The SBC result: binary or decimal by D (R165). -/
def sbcResult (f : Flags) (a m : Byte) : AluResult :=
  if f.d then subDec a m f.c else addBin a (~~~m) f.c

/-- `Compare(r, m)` (R163): V keeps its value. -/
def Flags.compare (f : Flags) (r m : Byte) : Flags :=
  { f with c := decide (m.toNat ≤ r.toNat), z := decide (r = m), n := bit (r - m) 7 }

/-- The flags of BIT (R172): Z from A and m, N and V from m. -/
def Flags.bitTest (f : Flags) (a m : Byte) : Flags :=
  { f with z := decide (a &&& m = 0#8), n := bit m 7, v := bit m 6 }

/-- A byte and a carry: what a read-modify-write function gives (R190). -/
structure ShiftResult where
  value : Byte
  c : Bool
deriving DecidableEq, Repr

/-- ASL: the old bit 7 goes to C (R191). -/
def aslByte (v : Byte) (_ : Bool) : ShiftResult := ⟨v <<< 1, bit v 7⟩

/-- LSR: the old bit 0 goes to C (R192). -/
def lsrByte (v : Byte) (_ : Bool) : ShiftResult := ⟨v >>> 1, bit v 0⟩

/-- ROL: the old carry enters bit 0 (R193). -/
def rolByte (v : Byte) (c : Bool) : ShiftResult :=
  ⟨(v <<< 1) ||| BitVec.ofNat 8 c.toNat, bit v 7⟩

/-- ROR: the old carry enters bit 7 (R194). -/
def rorByte (v : Byte) (c : Bool) : ShiftResult :=
  ⟨(v >>> 1) ||| (BitVec.ofNat 8 c.toNat <<< 7), bit v 0⟩

/-- INC: C keeps its value (R195). -/
def incByte (v : Byte) (c : Bool) : ShiftResult := ⟨v + 1#8, c⟩

/-- DEC: C keeps its value (R196). -/
def decByte (v : Byte) (c : Bool) : ShiftResult := ⟨v - 1#8, c⟩

/-- C from the result, Z and N of the result byte (R190). -/
def Flags.setShift (f : Flags) (r : ShiftResult) : Flags := { f.setZN r.value with c := r.c }

end Sys2Proof.Machine
end

