-- ==== Sys2Proof/Machine/Ops.lean ====
section
/-! DEFINITION. The named operations over registers, memory, the stack and the counter, exception entry
(R266, R236) and the return from one (R237, R269). -/

namespace Sys2Proof.Machine

/-- `A <- v`. -/
def State.setA (s : State) (v : Byte) : State := { s with a := v }

/-- `X <- v`. -/
def State.setX (s : State) (v : Byte) : State := { s with x := v }

/-- `Y <- v`. -/
def State.setY (s : State) (v : Byte) : State := { s with y := v }

/-- `SP <- v`. -/
def State.setSp (s : State) (v : Byte) : State := { s with sp := v }

/-- `PC <- target` (R12). -/
def State.setPc (s : State) (target : Word) : State := { s with pc := target }

/-- The seven flags replaced. -/
def State.setFlags (s : State) (f : Flags) : State := { s with flags := f }

/-- `MemWrite(a, 1, v)` (R11). -/
def State.write (s : State) (a : Word) (v : Byte) : State := { s with mem := s.mem.write a v }

/-- `cycles <- cycles + n` (R12). -/
def State.tick (s : State) (n : Nat) : State := { s with cycles := s.cycles + n }

/-- `irq_line <- b`: the host's (R33). -/
def State.setIrqLine (s : State) (b : Bool) : State := { s with irqLine := b }

/-- `nmi_pending <- b` (R34). -/
def State.setNmiPending (s : State) (b : Bool) : State := { s with nmiPending := b }

/-- `MemRead(a, 1)` (R11). -/
def State.read (s : State) (a : Word) : Byte := s.mem.read a

/-- The address of the stack slot for a value of SP (R23). -/
def stackAddr (sp : Byte) : Word := 0x0100#16 + zext16 sp

/-- `Push(v)`: write, then SP - 1 (R11, R23). -/
def State.push (s : State) (v : Byte) : State :=
  { s with sp := s.sp - 1#8, mem := s.mem.write (stackAddr s.sp) v }

/-- `Pull()`: SP + 1, then read (R11, R23). -/
def State.pull (s : State) : Byte × State :=
  (s.mem.read (stackAddr (s.sp + 1#8)), { s with sp := s.sp + 1#8 })

/-- The return address on the stack, high byte first (R51, D3). -/
def State.pushWord (s : State) (w : Word) : State := (s.push (hiByte w)).push (loByte w)

/-- The return address from the stack, low byte first (D3). -/
def State.pullWord (s : State) : Word × State :=
  (wordOf s.pull.2.pull.1 s.pull.1, s.pull.2.pull.2)

/-- The NMI vector (R58, R262). -/
def nmiVector : Word := 0xFFFA#16

/-- The reset vector (R58, R294). -/
def resetVector : Word := 0xFFFC#16

/-- The vector BRK and IRQ share (R58, R262). -/
def irqVector : Word := 0xFFFE#16

/-- Taking an exception, shared by BRK, IRQ and NMI (R236, R266): the return address and the packed
status go to the stack, I is set, PC comes from the vector, 7 cycles. A, X, Y, C, Z, D, V, N and the
stored B keep their values. -/
def State.enterHandler (s : State) (ret : Word) (b4 : Bool) (vector : Word) : State :=
  let s1 := (s.pushWord ret).push (s.flags.pack b4)
  { s1 with
    flags := { s.flags with i := true }, pc := s1.mem.read16 vector, cycles := s.cycles + 7 }

/-- Returning from an exception (R237, R269): status, then PC, which is not incremented; 6 cycles. -/
def State.returnFromHandler (s : State) : State :=
  let s1 := s.pull.2
  { s1.pullWord.2 with
    flags := s.flags.unpack s.pull.1, pc := s1.pullWord.1, cycles := s.cycles + 6 }

/-- The interrupt the top of a step takes: NMI before IRQ, IRQ only while I = 0 (R101, R263, R264,
R267). -/
def State.pendingInterrupt (s : State) : Option Interrupt :=
  if s.nmiPending then some .nmi
  else if s.irqLine && !s.flags.i then some .irq
  else none

/-- `InterruptEntry(src)` (R264, R266): NMI clears its latch, IRQ leaves the line to the host. -/
def State.takeInterrupt (s : State) : Interrupt → State
  | .nmi => (s.setNmiPending false).enterHandler s.pc false nmiVector
  | .irq => s.enterHandler s.pc false irqVector

/-- The state a fault leaves (R260). -/
def Fault.stateAfter : Fault → State
  | .undefinedInstruction _ _ after => after

/-- The spec's label of a fault: 0, the only exception (R261). -/
def Fault.code : Fault → Nat
  | .undefinedInstruction _ _ _ => 0

end Sys2Proof.Machine
end

