-- ==== Sys2Proof/Machine/Operands.lean ====
section
/-! DEFINITION. The addressing-mode resolver (R110 to R121) and the cycle totals by mode and category
(R104). Here PC stands past the instruction's own bytes: their fetch comes first (R102). -/

namespace Sys2Proof.Machine

/-- The modes that form an effective address of a data byte, each with its operand. -/
inductive MemMode where
  | zp (b : Byte)
  | zpX (b : Byte)
  | zpY (b : Byte)
  | abs (w : Word)
  | absX (w : Word)
  | absY (w : Word)
  | indX (p : Byte)
  | indY (p : Byte)
deriving DecidableEq, Repr

/-- The operand of a read-type instruction: an immediate byte or a byte of memory (R121). -/
inductive Operand where
  | imm (m : Byte)
  | mem (m : MemMode)
deriving DecidableEq, Repr

/-- The address before the index that may cross a page is added: `base` of R116 and R118. -/
def MemMode.base (m : MemMode) (s : State) : Word :=
  match m with
  | .zp b => zext16 b
  | .zpX b => zext16 (b + s.x)
  | .zpY b => zext16 (b + s.y)
  | .abs w => w
  | .absX w => w
  | .absY w => w
  | .indX p => s.mem.read16zp (p + s.x)
  | .indY p => s.mem.read16zp p

/-- The index added to `base`; 0 for the modes that add none. -/
def MemMode.index (m : MemMode) (s : State) : Byte :=
  match m with
  | .absX _ => s.x
  | .absY _ => s.y
  | .indY _ => s.y
  | .zp _ | .zpX _ | .zpY _ | .abs _ | .indX _ => 0#8

/-- `ea`, the effective address (R113 to R118). -/
def MemMode.ea (m : MemMode) (s : State) : Word := m.base s + zext16 (m.index s)

/-- `px`: the indexed computation left the page of its base (R116, R118). -/
def MemMode.px (m : MemMode) (s : State) : Bool := !decide (page (m.ea s) = page (m.base s))

/-- Total of a read-type instruction on memory (R104). -/
def MemMode.readCycles (m : MemMode) (s : State) : Nat :=
  match m with
  | .zp _ => 3
  | .zpX _ | .zpY _ | .abs _ => 4
  | .absX _ | .absY _ => 4 + (m.px s).toNat
  | .indX _ => 6
  | .indY _ => 5 + (m.px s).toNat

/-- Total of a store (R104): the indexed modes pay the extra cycle always. -/
def MemMode.storeCycles : MemMode → Nat
  | .zp _ => 3
  | .zpX _ | .zpY _ | .abs _ => 4
  | .absX _ | .absY _ => 5
  | .indX _ | .indY _ => 6

/-- Total of a read-modify-write (R104, R190, D8): the store's mode cost plus 2. -/
def MemMode.rmwCycles (m : MemMode) : Nat := m.storeCycles + 2

/-- `Operand(mode)` (R13, R121). -/
def Operand.value (o : Operand) (s : State) : Byte :=
  match o with
  | .imm m => m
  | .mem m => s.read (m.ea s)

/-- Total of a read-type instruction (R104). -/
def Operand.readCycles (o : Operand) (s : State) : Nat :=
  match o with
  | .imm _ => 2
  | .mem m => m.readCycles s

/-- The target of a taken branch, from the address after it (R120). -/
def branchTarget (next : Word) (d : Byte) : Word := next + sext16 d

/-- Total of a branch (R104, R120, D9). -/
def branchCycles (taken : Bool) (next target : Word) : Nat :=
  if taken then (if page target = page next then 3 else 4) else 2

end Sys2Proof.Machine
end

