-- ==== Sys2Proof/Machine/Arith.lean ====
section
/-! DEFINITION. Arithmetic, logical, compare and bit-test instructions (R160 to R174). -/

namespace Sys2Proof.Machine

/-- ADC (R164). -/
def State.adc (s : State) (o : Operand) : State :=
  let r := adcResult s.flags s.a (o.value s)
  { s with a := r.value, flags := s.flags.setAlu r, cycles := s.cycles + o.readCycles s }

/-- SBC (R165). -/
def State.sbc (s : State) (o : Operand) : State :=
  let r := sbcResult s.flags s.a (o.value s)
  { s with a := r.value, flags := s.flags.setAlu r, cycles := s.cycles + o.readCycles s }

/-- AND, ORA and EOR: a byte combined with A, Z and N of the result (R166 to R168). -/
def State.logic (s : State) (f : Byte → Byte → Byte) (o : Operand) : State :=
  let r := f s.a (o.value s)
  { s with a := r, flags := s.flags.setZN r, cycles := s.cycles + o.readCycles s }

/-- CMP, CPX and CPY: no register changes (R169 to R171). -/
def State.cmp (s : State) (reg : Byte) (o : Operand) : State :=
  { s with
    flags := s.flags.compare reg (o.value s), cycles := s.cycles + o.readCycles s }

/-- BIT (R172): A does not change. -/
def State.bitTest (s : State) (o : Operand) : State :=
  { s with
    flags := s.flags.bitTest s.a (o.value s), cycles := s.cycles + o.readCycles s }

/-- ADC immediate, opcode 0x69 (R164). -/
def execAdcImm (m : Byte) (s : State) : Result := .next (s.adc (.imm m))

/-- ADC zero page, opcode 0x65 (R164). -/
def execAdcZp (b : Byte) (s : State) : Result := .next (s.adc (.mem (.zp b)))

/-- ADC zero page,X, opcode 0x75 (R164). -/
def execAdcZpX (b : Byte) (s : State) : Result := .next (s.adc (.mem (.zpX b)))

/-- ADC absolute, opcode 0x6D (R164). -/
def execAdcAbs (w : Word) (s : State) : Result := .next (s.adc (.mem (.abs w)))

/-- ADC absolute,X, opcode 0x7D (R164). -/
def execAdcAbsX (w : Word) (s : State) : Result := .next (s.adc (.mem (.absX w)))

/-- ADC absolute,Y, opcode 0x79 (R164). -/
def execAdcAbsY (w : Word) (s : State) : Result := .next (s.adc (.mem (.absY w)))

/-- ADC (indirect,X), opcode 0x61 (R164). -/
def execAdcIndX (p : Byte) (s : State) : Result := .next (s.adc (.mem (.indX p)))

/-- ADC (indirect),Y, opcode 0x71 (R164). -/
def execAdcIndY (p : Byte) (s : State) : Result := .next (s.adc (.mem (.indY p)))

/-- SBC immediate, opcode 0xE9 (R165). -/
def execSbcImm (m : Byte) (s : State) : Result := .next (s.sbc (.imm m))

/-- SBC zero page, opcode 0xE5 (R165). -/
def execSbcZp (b : Byte) (s : State) : Result := .next (s.sbc (.mem (.zp b)))

/-- SBC zero page,X, opcode 0xF5 (R165). -/
def execSbcZpX (b : Byte) (s : State) : Result := .next (s.sbc (.mem (.zpX b)))

/-- SBC absolute, opcode 0xED (R165). -/
def execSbcAbs (w : Word) (s : State) : Result := .next (s.sbc (.mem (.abs w)))

/-- SBC absolute,X, opcode 0xFD (R165). -/
def execSbcAbsX (w : Word) (s : State) : Result := .next (s.sbc (.mem (.absX w)))

/-- SBC absolute,Y, opcode 0xF9 (R165). -/
def execSbcAbsY (w : Word) (s : State) : Result := .next (s.sbc (.mem (.absY w)))

/-- SBC (indirect,X), opcode 0xE1 (R165). -/
def execSbcIndX (p : Byte) (s : State) : Result := .next (s.sbc (.mem (.indX p)))

/-- SBC (indirect),Y, opcode 0xF1 (R165). -/
def execSbcIndY (p : Byte) (s : State) : Result := .next (s.sbc (.mem (.indY p)))

/-- AND immediate, opcode 0x29 (R166). -/
def execAndImm (m : Byte) (s : State) : Result := .next (s.logic (fun a m => a &&& m) (.imm m))

/-- AND zero page, opcode 0x25 (R166). -/
def execAndZp (b : Byte) (s : State) : Result := .next (s.logic (fun a m => a &&& m) (.mem (.zp b)))

/-- AND zero page,X, opcode 0x35 (R166). -/
def execAndZpX (b : Byte) (s : State) : Result :=
  .next (s.logic (fun a m => a &&& m) (.mem (.zpX b)))

/-- AND absolute, opcode 0x2D (R166). -/
def execAndAbs (w : Word) (s : State) : Result :=
  .next (s.logic (fun a m => a &&& m) (.mem (.abs w)))

/-- AND absolute,X, opcode 0x3D (R166). -/
def execAndAbsX (w : Word) (s : State) : Result :=
  .next (s.logic (fun a m => a &&& m) (.mem (.absX w)))

/-- AND absolute,Y, opcode 0x39 (R166). -/
def execAndAbsY (w : Word) (s : State) : Result :=
  .next (s.logic (fun a m => a &&& m) (.mem (.absY w)))

/-- AND (indirect,X), opcode 0x21 (R166). -/
def execAndIndX (p : Byte) (s : State) : Result :=
  .next (s.logic (fun a m => a &&& m) (.mem (.indX p)))

/-- AND (indirect),Y, opcode 0x31 (R166). -/
def execAndIndY (p : Byte) (s : State) : Result :=
  .next (s.logic (fun a m => a &&& m) (.mem (.indY p)))

/-- ORA immediate, opcode 0x09 (R167). -/
def execOraImm (m : Byte) (s : State) : Result := .next (s.logic (fun a m => a ||| m) (.imm m))

/-- ORA zero page, opcode 0x05 (R167). -/
def execOraZp (b : Byte) (s : State) : Result := .next (s.logic (fun a m => a ||| m) (.mem (.zp b)))

/-- ORA zero page,X, opcode 0x15 (R167). -/
def execOraZpX (b : Byte) (s : State) : Result :=
  .next (s.logic (fun a m => a ||| m) (.mem (.zpX b)))

/-- ORA absolute, opcode 0x0D (R167). -/
def execOraAbs (w : Word) (s : State) : Result :=
  .next (s.logic (fun a m => a ||| m) (.mem (.abs w)))

/-- ORA absolute,X, opcode 0x1D (R167). -/
def execOraAbsX (w : Word) (s : State) : Result :=
  .next (s.logic (fun a m => a ||| m) (.mem (.absX w)))

/-- ORA absolute,Y, opcode 0x19 (R167). -/
def execOraAbsY (w : Word) (s : State) : Result :=
  .next (s.logic (fun a m => a ||| m) (.mem (.absY w)))

/-- ORA (indirect,X), opcode 0x01 (R167). -/
def execOraIndX (p : Byte) (s : State) : Result :=
  .next (s.logic (fun a m => a ||| m) (.mem (.indX p)))

/-- ORA (indirect),Y, opcode 0x11 (R167). -/
def execOraIndY (p : Byte) (s : State) : Result :=
  .next (s.logic (fun a m => a ||| m) (.mem (.indY p)))

/-- EOR immediate, opcode 0x49 (R168). -/
def execEorImm (m : Byte) (s : State) : Result := .next (s.logic (fun a m => a ^^^ m) (.imm m))

/-- EOR zero page, opcode 0x45 (R168). -/
def execEorZp (b : Byte) (s : State) : Result := .next (s.logic (fun a m => a ^^^ m) (.mem (.zp b)))

/-- EOR zero page,X, opcode 0x55 (R168). -/
def execEorZpX (b : Byte) (s : State) : Result :=
  .next (s.logic (fun a m => a ^^^ m) (.mem (.zpX b)))

/-- EOR absolute, opcode 0x4D (R168). -/
def execEorAbs (w : Word) (s : State) : Result :=
  .next (s.logic (fun a m => a ^^^ m) (.mem (.abs w)))

/-- EOR absolute,X, opcode 0x5D (R168). -/
def execEorAbsX (w : Word) (s : State) : Result :=
  .next (s.logic (fun a m => a ^^^ m) (.mem (.absX w)))

/-- EOR absolute,Y, opcode 0x59 (R168). -/
def execEorAbsY (w : Word) (s : State) : Result :=
  .next (s.logic (fun a m => a ^^^ m) (.mem (.absY w)))

/-- EOR (indirect,X), opcode 0x41 (R168). -/
def execEorIndX (p : Byte) (s : State) : Result :=
  .next (s.logic (fun a m => a ^^^ m) (.mem (.indX p)))

/-- EOR (indirect),Y, opcode 0x51 (R168). -/
def execEorIndY (p : Byte) (s : State) : Result :=
  .next (s.logic (fun a m => a ^^^ m) (.mem (.indY p)))

/-- CMP immediate, opcode 0xC9 (R169). -/
def execCmpImm (m : Byte) (s : State) : Result := .next (s.cmp s.a (.imm m))

/-- CMP zero page, opcode 0xC5 (R169). -/
def execCmpZp (b : Byte) (s : State) : Result := .next (s.cmp s.a (.mem (.zp b)))

/-- CMP zero page,X, opcode 0xD5 (R169). -/
def execCmpZpX (b : Byte) (s : State) : Result := .next (s.cmp s.a (.mem (.zpX b)))

/-- CMP absolute, opcode 0xCD (R169). -/
def execCmpAbs (w : Word) (s : State) : Result := .next (s.cmp s.a (.mem (.abs w)))

/-- CMP absolute,X, opcode 0xDD (R169). -/
def execCmpAbsX (w : Word) (s : State) : Result := .next (s.cmp s.a (.mem (.absX w)))

/-- CMP absolute,Y, opcode 0xD9 (R169). -/
def execCmpAbsY (w : Word) (s : State) : Result := .next (s.cmp s.a (.mem (.absY w)))

/-- CMP (indirect,X), opcode 0xC1 (R169). -/
def execCmpIndX (p : Byte) (s : State) : Result := .next (s.cmp s.a (.mem (.indX p)))

/-- CMP (indirect),Y, opcode 0xD1 (R169). -/
def execCmpIndY (p : Byte) (s : State) : Result := .next (s.cmp s.a (.mem (.indY p)))

/-- CPX immediate, opcode 0xE0 (R170). -/
def execCpxImm (m : Byte) (s : State) : Result := .next (s.cmp s.x (.imm m))

/-- CPX zero page, opcode 0xE4 (R170). -/
def execCpxZp (b : Byte) (s : State) : Result := .next (s.cmp s.x (.mem (.zp b)))

/-- CPX absolute, opcode 0xEC (R170). -/
def execCpxAbs (w : Word) (s : State) : Result := .next (s.cmp s.x (.mem (.abs w)))

/-- CPY immediate, opcode 0xC0 (R171). -/
def execCpyImm (m : Byte) (s : State) : Result := .next (s.cmp s.y (.imm m))

/-- CPY zero page, opcode 0xC4 (R171). -/
def execCpyZp (b : Byte) (s : State) : Result := .next (s.cmp s.y (.mem (.zp b)))

/-- CPY absolute, opcode 0xCC (R171). -/
def execCpyAbs (w : Word) (s : State) : Result := .next (s.cmp s.y (.mem (.abs w)))

/-- BIT zero page, opcode 0x24 (R172). -/
def execBitZp (b : Byte) (s : State) : Result := .next (s.bitTest (.mem (.zp b)))

/-- BIT absolute, opcode 0x2C (R172). -/
def execBitAbs (w : Word) (s : State) : Result := .next (s.bitTest (.mem (.abs w)))

end Sys2Proof.Machine
end

