-- ==== Sys2Proof/Machine/Control.lean ====
section
/-! DEFINITION. Branch, jump and subroutine instructions (R210 to R222). PC stands past the
instruction's own bytes (R102), so it is `next` of R210. -/

namespace Sys2Proof.Machine

/-- `Branch(cond)` (R210). -/
def State.branch (s : State) (taken : Bool) (d : Byte) : State :=
  let target := branchTarget s.pc d
  { s with
    pc := if taken then target else s.pc, cycles := s.cycles + branchCycles taken s.pc target }

/-- BCC relative, opcode 0x90 (R211). -/
def execBcc (d : Byte) (s : State) : Result := .next (s.branch (!s.flags.c) d)

/-- BCS relative, opcode 0xB0 (R212). -/
def execBcs (d : Byte) (s : State) : Result := .next (s.branch s.flags.c d)

/-- BEQ relative, opcode 0xF0 (R213). -/
def execBeq (d : Byte) (s : State) : Result := .next (s.branch s.flags.z d)

/-- BNE relative, opcode 0xD0 (R214). -/
def execBne (d : Byte) (s : State) : Result := .next (s.branch (!s.flags.z) d)

/-- BMI relative, opcode 0x30 (R215). -/
def execBmi (d : Byte) (s : State) : Result := .next (s.branch s.flags.n d)

/-- BPL relative, opcode 0x10 (R216). -/
def execBpl (d : Byte) (s : State) : Result := .next (s.branch (!s.flags.n) d)

/-- BVC relative, opcode 0x50 (R217). -/
def execBvc (d : Byte) (s : State) : Result := .next (s.branch (!s.flags.v) d)

/-- BVS relative, opcode 0x70 (R218). -/
def execBvs (d : Byte) (s : State) : Result := .next (s.branch s.flags.v d)

/-- JMP absolute, opcode 0x4C (R219). -/
def execJmpAbs (w : Word) (s : State) : Result := .next { s with pc := w, cycles := s.cycles + 3 }

/-- JMP indirect, opcode 0x6C (R219). -/
def execJmpInd (w : Word) (s : State) : Result :=
  .next { s with pc := s.mem.read16page w, cycles := s.cycles + 5 }

/-- JSR absolute, opcode 0x20 (R220): the address of the instruction's last byte is pushed. -/
def execJsr (w : Word) (s : State) : Result :=
  .next { s.pushWord (s.pc - 1#16) with pc := w, cycles := s.cycles + 6 }

/-- RTS implied, opcode 0x60 (R221): the pulled address plus 1. -/
def execRts (s : State) : Result :=
  .next { s.pullWord.2 with pc := s.pullWord.1 + 1#16, cycles := s.cycles + 6 }

end Sys2Proof.Machine
end

