-- ==== Sys2Proof/Machine/LoadStore.lean ====
section
/-! DEFINITION. Load, store and transfer instructions (R140 to R151). -/

namespace Sys2Proof.Machine

/-- LDA (R140). -/
def State.loadA (s : State) (o : Operand) : State :=
  { s with
    a := o.value s, flags := s.flags.setZN (o.value s), cycles := s.cycles + o.readCycles s }

/-- LDX (R141). -/
def State.loadX (s : State) (o : Operand) : State :=
  { s with
    x := o.value s, flags := s.flags.setZN (o.value s), cycles := s.cycles + o.readCycles s }

/-- LDY (R142). -/
def State.loadY (s : State) (o : Operand) : State :=
  { s with
    y := o.value s, flags := s.flags.setZN (o.value s), cycles := s.cycles + o.readCycles s }

/-- A store of a register's byte (R143 to R145): no flag changes. -/
def State.store (s : State) (v : Byte) (m : MemMode) : State :=
  { s with mem := s.mem.write (m.ea s) v, cycles := s.cycles + m.storeCycles }

/-- LDA immediate, opcode 0xA9 (R140). -/
def execLdaImm (m : Byte) (s : State) : Result := .next (s.loadA (.imm m))

/-- LDA zero page, opcode 0xA5 (R140). -/
def execLdaZp (b : Byte) (s : State) : Result := .next (s.loadA (.mem (.zp b)))

/-- LDA zero page,X, opcode 0xB5 (R140). -/
def execLdaZpX (b : Byte) (s : State) : Result := .next (s.loadA (.mem (.zpX b)))

/-- LDA absolute, opcode 0xAD (R140). -/
def execLdaAbs (w : Word) (s : State) : Result := .next (s.loadA (.mem (.abs w)))

/-- LDA absolute,X, opcode 0xBD (R140). -/
def execLdaAbsX (w : Word) (s : State) : Result := .next (s.loadA (.mem (.absX w)))

/-- LDA absolute,Y, opcode 0xB9 (R140). -/
def execLdaAbsY (w : Word) (s : State) : Result := .next (s.loadA (.mem (.absY w)))

/-- LDA (indirect,X), opcode 0xA1 (R140). -/
def execLdaIndX (p : Byte) (s : State) : Result := .next (s.loadA (.mem (.indX p)))

/-- LDA (indirect),Y, opcode 0xB1 (R140). -/
def execLdaIndY (p : Byte) (s : State) : Result := .next (s.loadA (.mem (.indY p)))

/-- LDX immediate, opcode 0xA2 (R141). -/
def execLdxImm (m : Byte) (s : State) : Result := .next (s.loadX (.imm m))

/-- LDX zero page, opcode 0xA6 (R141). -/
def execLdxZp (b : Byte) (s : State) : Result := .next (s.loadX (.mem (.zp b)))

/-- LDX zero page,Y, opcode 0xB6 (R141). -/
def execLdxZpY (b : Byte) (s : State) : Result := .next (s.loadX (.mem (.zpY b)))

/-- LDX absolute, opcode 0xAE (R141). -/
def execLdxAbs (w : Word) (s : State) : Result := .next (s.loadX (.mem (.abs w)))

/-- LDX absolute,Y, opcode 0xBE (R141). -/
def execLdxAbsY (w : Word) (s : State) : Result := .next (s.loadX (.mem (.absY w)))

/-- LDY immediate, opcode 0xA0 (R142). -/
def execLdyImm (m : Byte) (s : State) : Result := .next (s.loadY (.imm m))

/-- LDY zero page, opcode 0xA4 (R142). -/
def execLdyZp (b : Byte) (s : State) : Result := .next (s.loadY (.mem (.zp b)))

/-- LDY zero page,X, opcode 0xB4 (R142). -/
def execLdyZpX (b : Byte) (s : State) : Result := .next (s.loadY (.mem (.zpX b)))

/-- LDY absolute, opcode 0xAC (R142). -/
def execLdyAbs (w : Word) (s : State) : Result := .next (s.loadY (.mem (.abs w)))

/-- LDY absolute,X, opcode 0xBC (R142). -/
def execLdyAbsX (w : Word) (s : State) : Result := .next (s.loadY (.mem (.absX w)))

/-- STA zero page, opcode 0x85 (R143). -/
def execStaZp (b : Byte) (s : State) : Result := .next (s.store s.a (.zp b))

/-- STA zero page,X, opcode 0x95 (R143). -/
def execStaZpX (b : Byte) (s : State) : Result := .next (s.store s.a (.zpX b))

/-- STA absolute, opcode 0x8D (R143). -/
def execStaAbs (w : Word) (s : State) : Result := .next (s.store s.a (.abs w))

/-- STA absolute,X, opcode 0x9D (R143). -/
def execStaAbsX (w : Word) (s : State) : Result := .next (s.store s.a (.absX w))

/-- STA absolute,Y, opcode 0x99 (R143). -/
def execStaAbsY (w : Word) (s : State) : Result := .next (s.store s.a (.absY w))

/-- STA (indirect,X), opcode 0x81 (R143). -/
def execStaIndX (p : Byte) (s : State) : Result := .next (s.store s.a (.indX p))

/-- STA (indirect),Y, opcode 0x91 (R143). -/
def execStaIndY (p : Byte) (s : State) : Result := .next (s.store s.a (.indY p))

/-- STX zero page, opcode 0x86 (R144). -/
def execStxZp (b : Byte) (s : State) : Result := .next (s.store s.x (.zp b))

/-- STX zero page,Y, opcode 0x96 (R144). -/
def execStxZpY (b : Byte) (s : State) : Result := .next (s.store s.x (.zpY b))

/-- STX absolute, opcode 0x8E (R144). -/
def execStxAbs (w : Word) (s : State) : Result := .next (s.store s.x (.abs w))

/-- STY zero page, opcode 0x84 (R145). -/
def execStyZp (b : Byte) (s : State) : Result := .next (s.store s.y (.zp b))

/-- STY zero page,X, opcode 0x94 (R145). -/
def execStyZpX (b : Byte) (s : State) : Result := .next (s.store s.y (.zpX b))

/-- STY absolute, opcode 0x8C (R145). -/
def execStyAbs (w : Word) (s : State) : Result := .next (s.store s.y (.abs w))

/-- TAX implied, opcode 0xAA (R146). -/
def execTax (s : State) : Result :=
  .next { s with x := s.a, flags := s.flags.setZN s.a, cycles := s.cycles + 2 }

/-- TAY implied, opcode 0xA8 (R147). -/
def execTay (s : State) : Result :=
  .next { s with y := s.a, flags := s.flags.setZN s.a, cycles := s.cycles + 2 }

/-- TSX implied, opcode 0xBA (R148). -/
def execTsx (s : State) : Result :=
  .next { s with x := s.sp, flags := s.flags.setZN s.sp, cycles := s.cycles + 2 }

/-- TXA implied, opcode 0x8A (R149). -/
def execTxa (s : State) : Result :=
  .next { s with a := s.x, flags := s.flags.setZN s.x, cycles := s.cycles + 2 }

/-- TXS implied, opcode 0x9A (R150). -/
def execTxs (s : State) : Result := .next { s with sp := s.x, cycles := s.cycles + 2 }

/-- TYA implied, opcode 0x98 (R151). -/
def execTya (s : State) : Result :=
  .next { s with a := s.y, flags := s.flags.setZN s.y, cycles := s.cycles + 2 }

end Sys2Proof.Machine
end

