-- ==== Sys2Proof/Machine/ShiftInc.lean ====
section
/-! DEFINITION. Shift, rotate, increment and decrement instructions (R190 to R200). -/

namespace Sys2Proof.Machine

/-- A function of the operand byte and C, with its result byte and the new C (R190). -/
abbrev RmwFn := Byte → Bool → ShiftResult

/-- The accumulator form of the read-modify-write frame (R190, R111). -/
def State.rmwAcc (s : State) (f : RmwFn) : State :=
  let r := f s.a s.flags.c
  { s with a := r.value, flags := s.flags.setShift r, cycles := s.cycles + 2 }

/-- The memory form of the read-modify-write frame: one read, one write, to the same place (R190). -/
def State.rmwMem (s : State) (f : RmwFn) (m : MemMode) : State :=
  let r := f (s.read (m.ea s)) s.flags.c
  { s with
    mem := s.mem.write (m.ea s) r.value, flags := s.flags.setShift r
    cycles := s.cycles + m.rmwCycles }

/-- ASL accumulator, opcode 0x0A (R191). -/
def execAslAcc (s : State) : Result := .next (s.rmwAcc aslByte)

/-- ASL zero page, opcode 0x06 (R191). -/
def execAslZp (b : Byte) (s : State) : Result := .next (s.rmwMem aslByte (.zp b))

/-- ASL zero page,X, opcode 0x16 (R191). -/
def execAslZpX (b : Byte) (s : State) : Result := .next (s.rmwMem aslByte (.zpX b))

/-- ASL absolute, opcode 0x0E (R191). -/
def execAslAbs (w : Word) (s : State) : Result := .next (s.rmwMem aslByte (.abs w))

/-- ASL absolute,X, opcode 0x1E (R191). -/
def execAslAbsX (w : Word) (s : State) : Result := .next (s.rmwMem aslByte (.absX w))

/-- LSR accumulator, opcode 0x4A (R192). -/
def execLsrAcc (s : State) : Result := .next (s.rmwAcc lsrByte)

/-- LSR zero page, opcode 0x46 (R192). -/
def execLsrZp (b : Byte) (s : State) : Result := .next (s.rmwMem lsrByte (.zp b))

/-- LSR zero page,X, opcode 0x56 (R192). -/
def execLsrZpX (b : Byte) (s : State) : Result := .next (s.rmwMem lsrByte (.zpX b))

/-- LSR absolute, opcode 0x4E (R192). -/
def execLsrAbs (w : Word) (s : State) : Result := .next (s.rmwMem lsrByte (.abs w))

/-- LSR absolute,X, opcode 0x5E (R192). -/
def execLsrAbsX (w : Word) (s : State) : Result := .next (s.rmwMem lsrByte (.absX w))

/-- ROL accumulator, opcode 0x2A (R193). -/
def execRolAcc (s : State) : Result := .next (s.rmwAcc rolByte)

/-- ROL zero page, opcode 0x26 (R193). -/
def execRolZp (b : Byte) (s : State) : Result := .next (s.rmwMem rolByte (.zp b))

/-- ROL zero page,X, opcode 0x36 (R193). -/
def execRolZpX (b : Byte) (s : State) : Result := .next (s.rmwMem rolByte (.zpX b))

/-- ROL absolute, opcode 0x2E (R193). -/
def execRolAbs (w : Word) (s : State) : Result := .next (s.rmwMem rolByte (.abs w))

/-- ROL absolute,X, opcode 0x3E (R193). -/
def execRolAbsX (w : Word) (s : State) : Result := .next (s.rmwMem rolByte (.absX w))

/-- ROR accumulator, opcode 0x6A (R194). -/
def execRorAcc (s : State) : Result := .next (s.rmwAcc rorByte)

/-- ROR zero page, opcode 0x66 (R194). -/
def execRorZp (b : Byte) (s : State) : Result := .next (s.rmwMem rorByte (.zp b))

/-- ROR zero page,X, opcode 0x76 (R194). -/
def execRorZpX (b : Byte) (s : State) : Result := .next (s.rmwMem rorByte (.zpX b))

/-- ROR absolute, opcode 0x6E (R194). -/
def execRorAbs (w : Word) (s : State) : Result := .next (s.rmwMem rorByte (.abs w))

/-- ROR absolute,X, opcode 0x7E (R194). -/
def execRorAbsX (w : Word) (s : State) : Result := .next (s.rmwMem rorByte (.absX w))

/-- INC zero page, opcode 0xE6 (R195). -/
def execIncZp (b : Byte) (s : State) : Result := .next (s.rmwMem incByte (.zp b))

/-- INC zero page,X, opcode 0xF6 (R195). -/
def execIncZpX (b : Byte) (s : State) : Result := .next (s.rmwMem incByte (.zpX b))

/-- INC absolute, opcode 0xEE (R195). -/
def execIncAbs (w : Word) (s : State) : Result := .next (s.rmwMem incByte (.abs w))

/-- INC absolute,X, opcode 0xFE (R195). -/
def execIncAbsX (w : Word) (s : State) : Result := .next (s.rmwMem incByte (.absX w))

/-- DEC zero page, opcode 0xC6 (R196). -/
def execDecZp (b : Byte) (s : State) : Result := .next (s.rmwMem decByte (.zp b))

/-- DEC zero page,X, opcode 0xD6 (R196). -/
def execDecZpX (b : Byte) (s : State) : Result := .next (s.rmwMem decByte (.zpX b))

/-- DEC absolute, opcode 0xCE (R196). -/
def execDecAbs (w : Word) (s : State) : Result := .next (s.rmwMem decByte (.abs w))

/-- DEC absolute,X, opcode 0xDE (R196). -/
def execDecAbsX (w : Word) (s : State) : Result := .next (s.rmwMem decByte (.absX w))

/-- INX implied, opcode 0xE8 (R197). -/
def execInx (s : State) : Result :=
  .next { s with x := s.x + 1#8, flags := s.flags.setZN (s.x + 1#8), cycles := s.cycles + 2 }

/-- INY implied, opcode 0xC8 (R198). -/
def execIny (s : State) : Result :=
  .next { s with y := s.y + 1#8, flags := s.flags.setZN (s.y + 1#8), cycles := s.cycles + 2 }

/-- DEX implied, opcode 0xCA (R199). -/
def execDex (s : State) : Result :=
  .next { s with x := s.x - 1#8, flags := s.flags.setZN (s.x - 1#8), cycles := s.cycles + 2 }

/-- DEY implied, opcode 0x88 (R200). -/
def execDey (s : State) : Result :=
  .next { s with y := s.y - 1#8, flags := s.flags.setZN (s.y - 1#8), cycles := s.cycles + 2 }

end Sys2Proof.Machine
end

