-- ==== Sys2Proof/Machine/System.lean ====
section
/-! DEFINITION. Stack, break and return, flag and no-op instructions (R230 to R247). -/

namespace Sys2Proof.Machine

/-- PHA implied, opcode 0x48 (R230). -/
def execPha (s : State) : Result := .next { s.push s.a with cycles := s.cycles + 3 }

/-- PLA implied, opcode 0x68 (R231). -/
def execPla (s : State) : Result :=
  .next { s.pull.2 with a := s.pull.1, flags := s.flags.setZN s.pull.1, cycles := s.cycles + 4 }

/-- PHP implied, opcode 0x08 (R232). -/
def execPhp (s : State) : Result :=
  .next { s.push (s.flags.pack s.flags.b) with cycles := s.cycles + 3 }

/-- PLP implied, opcode 0x28 (R233). -/
def execPlp (s : State) : Result :=
  .next { s.pull.2 with flags := s.flags.unpack s.pull.1, cycles := s.cycles + 4 }

/-- BRK implied, opcode 0x00 (R236): exception entry with the opcode address plus 2 and bit 4 set. -/
def execBrk (s : State) : Result := .next (s.enterHandler (s.pc + 1#16) true irqVector)

/-- RTI implied, opcode 0x40 (R237). -/
def execRti (s : State) : Result := .next (s.returnFromHandler)

/-- SEC implied, opcode 0x38 (R240). -/
def execSec (s : State) : Result :=
  .next { s with flags := { s.flags with c := true }, cycles := s.cycles + 2 }

/-- CLC implied, opcode 0x18 (R241). -/
def execClc (s : State) : Result :=
  .next { s with flags := { s.flags with c := false }, cycles := s.cycles + 2 }

/-- SEI implied, opcode 0x78 (R242). -/
def execSei (s : State) : Result :=
  .next { s with flags := { s.flags with i := true }, cycles := s.cycles + 2 }

/-- CLI implied, opcode 0x58 (R243). -/
def execCli (s : State) : Result :=
  .next { s with flags := { s.flags with i := false }, cycles := s.cycles + 2 }

/-- SED implied, opcode 0xF8 (R244). -/
def execSed (s : State) : Result :=
  .next { s with flags := { s.flags with d := true }, cycles := s.cycles + 2 }

/-- CLD implied, opcode 0xD8 (R245). -/
def execCld (s : State) : Result :=
  .next { s with flags := { s.flags with d := false }, cycles := s.cycles + 2 }

/-- CLV implied, opcode 0xB8 (R246). -/
def execClv (s : State) : Result :=
  .next { s with flags := { s.flags with v := false }, cycles := s.cycles + 2 }

/-- NOP implied, opcode 0xEA (R247). -/
def execNop (s : State) : Result := .next { s with cycles := s.cycles + 2 }

end Sys2Proof.Machine
end

