-- ==== Sys2Proof/Machine/Fetch.lean ====
section
/-! DEFINITION. Fetching an instruction's bytes at PC and dispatching on the opcode (R11, R52, R101,
R102), and the fault of an undefined opcode (R260). -/

namespace Sys2Proof.Machine

/-- `Fetch8()` (R11, R24). -/
def State.fetch8 (s : State) : Byte × State := (s.read s.pc, s.setPc (s.pc + 1#16))

/-- `Fetch16()`: low byte, then high byte (R11). -/
def State.fetch16 (s : State) : Word × State :=
  let (lo, s1) := s.fetch8
  let (hi, s2) := s1.fetch8
  (wordOf hi lo, s2)

/-- UndefinedInstruction raised by the fetch at `s` (R260): the state after it has PC past the opcode
and one more cycle, and nothing else changed. -/
def undefinedFault (s : State) (op : Byte) : Fault :=
  .undefinedInstruction op s.pc ((s.setPc (s.pc + 1#16)).tick 1)

/-- The instruction at PC and the state after its bytes are fetched, or the fault (R101). -/
def State.fetch (s : State) : Except Fault (Instr × State) :=
  let (op, s1) := s.fetch8
  match opcodeMap op with
  | none => .error (undefinedFault s op)
  | some (.bare i) => .ok (i, s1)
  | some (.byte f) =>
    let (b1, s2) := s1.fetch8
    .ok (f b1, s2)
  | some (.word f) =>
    let (w, s2) := s1.fetch16
    .ok (f w, s2)

end Sys2Proof.Machine
end

