-- ==== Sys2Proof/Machine/Step.lean ====
section
/-! DEFINITION. One step of the core (R101). -/

namespace Sys2Proof.Machine

/-- `step()`: one pending interrupt, or one instruction after its bytes are fetched, or the fault of an
undefined opcode (R101, R260, R265). -/
def step (s : State) : Host.Outcome State Fault Refusal :=
  match s.pendingInterrupt with
  | some src => .next (s.takeInterrupt src)
  | none =>
    match s.fetch with
    | .error f => .fault f
    | .ok (i, s') => exec i s'

/-- The instruction whose bits are `w` stored at PC, with the bits above `nbits` zero, and the two
interrupt inputs inactive, so that the next step fetches it (log entry 2). -/
def State.withFetchWord (s : State) (nbits w : Nat) : State :=
  { s with
    mem := s.mem.place s.pc (tableBytes nbits w)
    irqLine := false
    nmiPending := false }

end Sys2Proof.Machine
end

