-- ==== Sys2Proof/Machine/HostInterface.lean ====
section
/-! DEFINITION. What the host does to the core between steps (R100, R37, R303): launch (R290), loading
an image (R292), the reset operation (R293), memory reset (R50), the interrupt inputs and pokes. -/

namespace Sys2Proof.Machine

/-- `reset()`, the processor reset operation (R293). -/
def State.resetOperation (s : State) : State :=
  { s with
    sp := s.sp - 3#8
    flags := { s.flags with i := true, b := true }
    nmiPending := false
    pc := s.mem.read16 resetVector
    cycles := s.cycles + 7 }

/-- Memory `reset()`: zero-fills the array and touches nothing else (R50). -/
def State.memoryReset (s : State) : State := { s with mem := Memory.zero }

/-- `load(image)` (R292): memory writes only. -/
def State.load (s : State) (image : List (Word × Byte)) : State := { s with mem := s.mem.load image }

/-- A byte register, chosen by the host (R26, R37). -/
inductive ByteRegister where
  | a | x | y | sp
deriving DecidableEq, Repr

/-- A status flag, chosen by the host (R27, R37). -/
inductive Flag where
  | c | z | i | d | b | v | n
deriving DecidableEq, Repr

/-- A byte register written; the width is the type (I11). -/
def State.setRegister (s : State) (r : ByteRegister) (v : Byte) : State :=
  match r with
  | .a => s.setA v
  | .x => s.setX v
  | .y => s.setY v
  | .sp => s.setSp v

/-- A flag written. -/
def Flags.set (f : Flags) (k : Flag) (v : Bool) : Flags :=
  match k with
  | .c => { f with c := v }
  | .z => { f with z := v }
  | .i => { f with i := v }
  | .d => { f with d := v }
  | .b => { f with b := v }
  | .v => { f with v := v }
  | .n => { f with n := v }

/-- The host's operations between steps, other than `step()` and launch (R100). -/
inductive HostAction where
  | load (image : List (Word × Byte))
  | reset
  | memoryReset
  | setIrq (b : Bool)
  | requestNmi
  | pokeRegister (r : ByteRegister) (v : Byte)
  | pokePc (v : Word)
  | pokeFlag (k : Flag) (v : Bool)
  | pokeMemory (a : Word) (v : Byte)
deriving DecidableEq, Repr

/-- The effect of a host operation; it is complete before the next step (R303). -/
def hostAct (act : HostAction) (s : State) : State :=
  match act with
  | .load image => s.load image
  | .reset => s.resetOperation
  | .memoryReset => s.memoryReset
  | .setIrq b => s.setIrqLine b
  | .requestNmi => s.setNmiPending true
  | .pokeRegister r v => s.setRegister r v
  | .pokePc v => s.setPc v
  | .pokeFlag k v => s.setFlags (s.flags.set k v)
  | .pokeMemory a v => s.write a v

/-- A byte setting of a launch, or the default. -/
def byteSetting (r : Option Nat) (default : Byte) : Byte :=
  match r with
  | some k => BitVec.ofNat 8 k
  | none => default

/-- The PC setting of a launch, or the default. -/
def wordSetting (r : Option Nat) (default : Word) : Word :=
  match r with
  | some k => BitVec.ofNat 16 k
  | none => default

/-- A flag setting of a launch, or the default. -/
def flagSetting (r : Option Nat) (default : Bool) : Bool :=
  match r with
  | some k => decide (k = 1)
  | none => default

/-- The overlay of a launch as addresses and bytes. -/
def overlayCells (overlay : List (Nat × Nat)) : List (Word × Byte) :=
  overlay.map (fun p => (BitVec.ofNat 16 p.1, BitVec.ofNat 8 p.2))

/-- The state a launch builds from accepted settings (R290): zero-filled memory, then the overlay, then
the program at PC; the counter 0 and both interrupt requests clear. -/
def launchState (defaults : LaunchDefaults) (r : LaunchRequest) : State :=
  let pc := wordSetting r.pc defaults.pc
  { a := byteSetting r.a defaults.a
    x := byteSetting r.x defaults.x
    y := byteSetting r.y defaults.y
    sp := byteSetting r.sp defaults.sp
    pc := pc
    flags :=
      { c := flagSetting r.c defaults.c, z := flagSetting r.z defaults.z
        i := flagSetting r.i defaults.i, d := flagSetting r.d defaults.d
        b := flagSetting r.b defaults.b, v := flagSetting r.v defaults.v
        n := flagSetting r.n defaults.n }
    mem := (Memory.zero.load (overlayCells r.overlay)).place pc (r.program.map (BitVec.ofNat 8))
    cycles := 0
    irqLine := false
    nmiPending := false }

/-- `launch(program, overlay, regs, flags)` (R290): a request with a value out of range is rejected at
the boundary (R261), and no state comes of it. -/
def launch (defaults : LaunchDefaults) (r : LaunchRequest) : Option State :=
  if r.wellFormed then some (launchState defaults r) else none

end Sys2Proof.Machine
end

