-- ==== Sys2Proof/Safety.lean ====
section
/-! DEFINITION. What the claims speak of: the invariant of the state, the states in which a step runs an
instruction, the undefined opcodes as R86 lists them, and, for each instruction, where it stores, whether
it transfers control, and its cycle total by the table. Nothing of the machine depends on this file. -/

namespace Sys2Proof.Machine

/-- The invariant every step keeps: memory is in its canonical form, so equal memories are equal data. -/
abbrev State.Inv (s : State) : Prop := s.mem.wf = true

/-- No interrupt is taken at the top of the next step (R101, R263, R264). -/
abbrev State.Undisturbed (s : State) : Prop :=
  s.nmiPending = false ∧ (s.irqLine = false ∨ s.flags.i = true)

/-- The 105 undefined opcode bytes, as R86 lists them. -/
def undefinedOpcodes : List Byte :=
  [0x02, 0x03, 0x04, 0x07, 0x0B, 0x0C, 0x0F, 0x12, 0x13, 0x14, 0x17, 0x1A, 0x1B, 0x1C, 0x1F]
    ++ [0x22, 0x23, 0x27, 0x2B, 0x2F, 0x32, 0x33, 0x34, 0x37, 0x3A, 0x3B, 0x3C, 0x3F, 0x42, 0x43]
    ++ [0x44, 0x47, 0x4B, 0x4F, 0x52, 0x53, 0x54, 0x57, 0x5A, 0x5B, 0x5C, 0x5F, 0x62, 0x63, 0x64]
    ++ [0x67, 0x6B, 0x6F, 0x72, 0x73, 0x74, 0x77, 0x7A, 0x7B, 0x7C, 0x7F, 0x80, 0x82, 0x83, 0x87]
    ++ [0x89, 0x8B, 0x8F, 0x92, 0x93, 0x97, 0x9B, 0x9C, 0x9E, 0x9F, 0xA3, 0xA7, 0xAB, 0xAF, 0xB2]
    ++ [0xB3, 0xB7, 0xBB, 0xBF, 0xC2, 0xC3, 0xC7, 0xCB, 0xCF, 0xD2, 0xD3, 0xD4, 0xD7, 0xDA, 0xDB]
    ++ [0xDC, 0xDF, 0xE2, 0xE3, 0xE7, 0xEB, 0xEF, 0xF2, 0xF3, 0xF4, 0xF7, 0xFA, 0xFB, 0xFC, 0xFF]

/-- The data-memory mode of an instruction with its operand; none where it has no effective address of a
data byte. -/
def memMode (i : Instr) : Option MemMode :=
  match i.mode with
  | .zeroPage => some (.zp (BitVec.ofNat 8 i.raw.operand))
  | .zeroPageX => some (.zpX (BitVec.ofNat 8 i.raw.operand))
  | .zeroPageY => some (.zpY (BitVec.ofNat 8 i.raw.operand))
  | .absolute => some (.abs (BitVec.ofNat 16 i.raw.operand))
  | .absoluteX => some (.absX (BitVec.ofNat 16 i.raw.operand))
  | .absoluteY => some (.absY (BitVec.ofNat 16 i.raw.operand))
  | .indirectX => some (.indX (BitVec.ofNat 8 i.raw.operand))
  | .indirectY => some (.indY (BitVec.ofNat 8 i.raw.operand))
  | .implied | .accumulator | .immediate | .indirect | .relative => none

/-- The effective address of the data byte, where there is one. -/
def dataAddresses (i : Instr) (s : State) : List Word :=
  match memMode i with
  | some m => [m.ea s]
  | none => []

/-- Every address an instruction stores to, from the state it runs in (R55, R121). -/
def storeTargets (i : Instr) (s : State) : List Word :=
  match i.mnemonic with
  | .sta | .stx | .sty | .asl | .lsr | .rol | .ror | .inc | .dec => dataAddresses i s
  | .pha | .php => [stackAddr s.sp]
  | .jsr => [stackAddr s.sp, stackAddr (s.sp - 1#8)]
  | .brk => [stackAddr s.sp, stackAddr (s.sp - 1#8), stackAddr (s.sp - 2#8)]
  | .lda | .ldx | .ldy | .tax | .tay | .tsx | .txa | .txs | .tya | .adc | .sbc | .and | .ora | .eor
  | .cmp | .cpx | .cpy | .bit | .inx | .iny | .dex | .dey | .bcc | .bcs | .beq | .bne | .bmi | .bpl
  | .bvc | .bvs | .jmp | .rts | .pla | .plp | .rti | .sec | .clc | .sei | .cli | .sed | .cld | .clv
  | .nop => []

/-- The control transfers of R105. -/
def controlTransfers : List Mnemonic :=
  [.bcc, .bcs, .beq, .bne, .bmi, .bpl, .bvc, .bvs, .jmp, .jsr, .rts, .brk, .rti]

/-- The condition of a branch (R211 to R218); none for an instruction that is no branch. -/
def branchCondition (m : Mnemonic) (f : Flags) : Option Bool :=
  match m with
  | .bcc => some (!f.c)
  | .bcs => some f.c
  | .beq => some f.z
  | .bne => some (!f.z)
  | .bmi => some f.n
  | .bpl => some (!f.n)
  | .bvc => some (!f.v)
  | .bvs => some f.v
  | .lda | .ldx | .ldy | .sta | .stx | .sty | .tax | .tay | .tsx | .txa | .txs | .tya | .adc | .sbc
  | .and | .ora | .eor | .cmp | .cpx | .cpy | .bit | .asl | .lsr | .rol | .ror | .inc | .dec | .inx
  | .iny | .dex | .dey | .jmp | .jsr | .rts | .pha | .pla | .php | .plp | .brk | .rti | .sec | .clc
  | .sei | .cli | .sed | .cld | .clv | .nop => none

/-- Fields `cycles` and `page_penalty` of opcode_table.json by opcode (R103, R305), one list for each high
digit of the opcode. -/
def cycleRows : List (List (Byte × Nat × Bool)) :=
  [[(0x00, 7, false), (0x01, 6, false), (0x05, 3, false), (0x06, 5, false), (0x08, 3, false),
      (0x09, 2, false), (0x0A, 2, false), (0x0D, 4, false), (0x0E, 6, false)]]
    ++ [[(0x10, 2, false), (0x11, 5, true), (0x15, 4, false), (0x16, 6, false), (0x18, 2, false),
      (0x19, 4, true), (0x1D, 4, true), (0x1E, 7, false)]]
    ++ [[(0x20, 6, false), (0x21, 6, false), (0x24, 3, false), (0x25, 3, false), (0x26, 5, false),
      (0x28, 4, false), (0x29, 2, false), (0x2A, 2, false), (0x2C, 4, false), (0x2D, 4, false),
      (0x2E, 6, false)]]
    ++ [[(0x30, 2, false), (0x31, 5, true), (0x35, 4, false), (0x36, 6, false), (0x38, 2, false),
      (0x39, 4, true), (0x3D, 4, true), (0x3E, 7, false)]]
    ++ [[(0x40, 6, false), (0x41, 6, false), (0x45, 3, false), (0x46, 5, false), (0x48, 3, false),
      (0x49, 2, false), (0x4A, 2, false), (0x4C, 3, false), (0x4D, 4, false), (0x4E, 6, false)]]
    ++ [[(0x50, 2, false), (0x51, 5, true), (0x55, 4, false), (0x56, 6, false), (0x58, 2, false),
      (0x59, 4, true), (0x5D, 4, true), (0x5E, 7, false)]]
    ++ [[(0x60, 6, false), (0x61, 6, false), (0x65, 3, false), (0x66, 5, false), (0x68, 4, false),
      (0x69, 2, false), (0x6A, 2, false), (0x6C, 5, false), (0x6D, 4, false), (0x6E, 6, false)]]
    ++ [[(0x70, 2, false), (0x71, 5, true), (0x75, 4, false), (0x76, 6, false), (0x78, 2, false),
      (0x79, 4, true), (0x7D, 4, true), (0x7E, 7, false)]]
    ++ [[(0x81, 6, false), (0x84, 3, false), (0x85, 3, false), (0x86, 3, false), (0x88, 2, false),
      (0x8A, 2, false), (0x8C, 4, false), (0x8D, 4, false), (0x8E, 4, false)]]
    ++ [[(0x90, 2, false), (0x91, 6, false), (0x94, 4, false), (0x95, 4, false), (0x96, 4, false),
      (0x98, 2, false), (0x99, 5, false), (0x9A, 2, false), (0x9D, 5, false)]]
    ++ [[(0xA0, 2, false), (0xA1, 6, false), (0xA2, 2, false), (0xA4, 3, false), (0xA5, 3, false),
      (0xA6, 3, false), (0xA8, 2, false), (0xA9, 2, false), (0xAA, 2, false), (0xAC, 4, false),
      (0xAD, 4, false), (0xAE, 4, false)]]
    ++ [[(0xB0, 2, false), (0xB1, 5, true), (0xB4, 4, false), (0xB5, 4, false), (0xB6, 4, false),
      (0xB8, 2, false), (0xB9, 4, true), (0xBA, 2, false), (0xBC, 4, true), (0xBD, 4, true),
      (0xBE, 4, true)]]
    ++ [[(0xC0, 2, false), (0xC1, 6, false), (0xC4, 3, false), (0xC5, 3, false), (0xC6, 5, false),
      (0xC8, 2, false), (0xC9, 2, false), (0xCA, 2, false), (0xCC, 4, false), (0xCD, 4, false),
      (0xCE, 6, false)]]
    ++ [[(0xD0, 2, false), (0xD1, 5, true), (0xD5, 4, false), (0xD6, 6, false), (0xD8, 2, false),
      (0xD9, 4, true), (0xDD, 4, true), (0xDE, 7, false)]]
    ++ [[(0xE0, 2, false), (0xE1, 6, false), (0xE4, 3, false), (0xE5, 3, false), (0xE6, 5, false),
      (0xE8, 2, false), (0xE9, 2, false), (0xEA, 2, false), (0xEC, 4, false), (0xED, 4, false),
      (0xEE, 6, false)]]
    ++ [[(0xF0, 2, false), (0xF1, 5, true), (0xF5, 4, false), (0xF6, 6, false), (0xF8, 2, false),
      (0xF9, 4, true), (0xFD, 4, true), (0xFE, 7, false)]]

/-- The row of an opcode; an opcode without one has no cycles. -/
def lookupCycles (op : Byte) : List (Byte × Nat × Bool) → Nat × Bool
  | [] => (0, false)
  | (k, row) :: rest => if k = op then row else lookupCycles op rest

/-- The table's row for an instruction, by the opcode it is encoded with. -/
def tableCycles (i : Instr) : Nat × Bool :=
  let op := (encode i).headD 0
  lookupCycles op (cycleRows.getD (op.toNat / 16) [])

/-- `px` of the instruction's mode as a number (R116, R118). -/
def pageCross (i : Instr) (s : State) : Nat :=
  match memMode i with
  | some m => (m.px s).toNat
  | none => 0

/-- The cycles of a branch beyond its base: 1 if taken, 2 if taken to another page than the next
instruction's (R120); 0 for an instruction that is no branch. -/
def branchExtra (i : Instr) (s : State) : Nat :=
  match branchCondition i.mnemonic s.flags with
  | some true =>
    if page (branchTarget s.pc (BitVec.ofNat 8 i.raw.operand)) = page s.pc then 1 else 2
  | _ => 0

/-- `Base(op) + Extra(op)` (R103). -/
def totalCycles (i : Instr) (s : State) : Nat :=
  (tableCycles i).1 + (if (tableCycles i).2 then pageCross i s else 0) + branchExtra i s

end Sys2Proof.Machine
end

