-- ==== Sys2Proof/Certificates/Slice0/Obligations.lean ====
section
/-! DEFINITION. The statements for the provers. `exec i s` runs `i` from a state whose PC stands past
the bytes of `i` (log entry 7), which is where a step's fetch leaves it; the step itself is the subject of
StepRunsTheDecodedInstruction. The opcode bytes are those of R84, the spec's own decision D1 (log entry 3). -/

namespace Sys2Proof.Claims

open Sys2Proof.Machine

/-- `px` of a mode as the number a cycle total adds. -/
def crossed (m : MemMode) (s : State) : Nat := (m.px s).toNat

/-- One form of a read-type instruction: the constructor, its bytes, its operand, its cycle total. -/
structure ReadForm where
  instr   : Instr
  bytes   : List Byte
  operand : Operand
  cycles  : Nat

/-- One form of an instruction that stores at an effective address: the constructor, its bytes, its mode,
its cycle total. -/
structure MemForm where
  instr  : Instr
  bytes  : List Byte
  mode   : MemMode
  cycles : Nat

/-- The bytes decode to the instruction and nothing is left over. -/
def DecodesTo (bytes : List Byte) (i : Instr) : Prop := decode bytes = .ok (i, [])

/-- The three bytes from PC on, wrapping at the end of memory: as many as the longest instruction has. -/
def bytesAtPc (s : State) : List Byte :=
  [s.mem.read s.pc, s.mem.read (s.pc + 1#16), s.mem.read (s.pc + 2#16)]

/-- Z and N of a byte, every other flag kept. -/
def withZN (f : Flags) (v : Byte) : Flags :=
  { f with z := decide (v.toNat = 0), n := decide (128 ≤ v.toNat) }

/-- The byte at an address given as a number. -/
def byteAt (s : State) (a : Nat) : Nat := (s.mem.read (BitVec.ofNat 16 a)).toNat

/-- Every byte outside the listed addresses reads as before. -/
def UnchangedOutside (addrs : List Word) (s t : State) : Prop :=
  ∀ a, a ∉ addrs → t.mem.read a = s.mem.read a

/-- A packed status byte, bit by bit (R27, R28). -/
def StatusByte (st : Byte) (f : Flags) (b4 : Bool) : Prop :=
  st.toNat.testBit 0 = f.c ∧ st.toNat.testBit 1 = f.z ∧ st.toNat.testBit 2 = f.i ∧
  st.toNat.testBit 3 = f.d ∧ st.toNat.testBit 4 = b4 ∧ st.toNat.testBit 5 = true ∧
  st.toNat.testBit 6 = f.v ∧ st.toNat.testBit 7 = f.n

/-- `sext_8(v)` as an integer (R9). -/
def signed (v : Byte) : Int := if 128 ≤ v.toNat then (v.toNat : Int) - 256 else v.toNat

/-- Exception entry from `s` to `t`: `ret` and the status on the stack, I set, PC from the vector, SP
less 3, 7 cycles, `nmi_pending` as given, and everything else kept, every other byte of memory included. -/
def HandlerEntered (s t : State) (ret : Word) (b4 : Bool) (vector : Word) (nmi : Bool) : Prop :=
  t = { s with
        sp := s.sp - 3#8, pc := t.pc, flags := { s.flags with i := true }, mem := t.mem
        cycles := s.cycles + 7, nmiPending := nmi } ∧
  t.pc.toNat = (s.mem.read vector).toNat + 256 * (s.mem.read (vector + 1#16)).toNat ∧
  t.mem.read (stackAddr s.sp) = hiByte ret ∧
  t.mem.read (stackAddr (s.sp - 1#8)) = loByte ret ∧
  StatusByte (t.mem.read (stackAddr (s.sp - 2#8))) s.flags b4 ∧
  UnchangedOutside [stackAddr s.sp, stackAddr (s.sp - 1#8), stackAddr (s.sp - 2#8)] s t

/-- A load into a register, given by the state with that register replaced. -/
def LoadsInto (put : State → Byte → State) (s : State) (f : ReadForm) : Prop :=
  DecodesTo f.bytes f.instr ∧
  exec f.instr s = .next { put s (f.operand.value s) with
    flags := withZN s.flags (f.operand.value s), cycles := s.cycles + f.cycles }

/-- A store of a byte: the byte at the effective address is written, every other byte reads as before,
and nothing but memory and the counter changes. -/
def Stores (v : Byte) (s : State) (f : MemForm) : Prop :=
  DecodesTo f.bytes f.instr ∧
  ∃ t, exec f.instr s = .next t ∧
    t = { s with mem := t.mem, cycles := s.cycles + f.cycles } ∧
    t.mem.read (f.mode.ea s) = v ∧ UnchangedOutside [f.mode.ea s] s t

/-- A logical instruction with result `r`. -/
def PutsInA (r : Byte → Byte) (s : State) (f : ReadForm) : Prop :=
  DecodesTo f.bytes f.instr ∧
  exec f.instr s = .next { s with
    a := r (f.operand.value s), flags := withZN s.flags (r (f.operand.value s))
    cycles := s.cycles + f.cycles }

/-- A compare of `reg`: C, Z and N only. -/
def Compares (reg : Byte) (s : State) (f : ReadForm) : Prop :=
  DecodesTo f.bytes f.instr ∧
  exec f.instr s = .next { s with
    flags := { s.flags with
      c := decide ((f.operand.value s).toNat ≤ reg.toNat)
      z := decide (reg.toNat = (f.operand.value s).toNat)
      n := decide (128 ≤ ((reg.toNat : Int) - (f.operand.value s).toNat) % 256) }
    cycles := s.cycles + f.cycles }

/-- The accumulator form of a read-modify-write: `r` and `c` of the old byte as a number. -/
def ShiftsA (i : Instr) (op : Byte) (r : Nat → Nat) (c : Nat → Bool) (s : State) : Prop :=
  DecodesTo [op] i ∧
  ∃ t, exec i s = .next t ∧ t.a.toNat = r s.a.toNat ∧
    t = { s with
          a := t.a, flags := { withZN s.flags t.a with c := c s.a.toNat }, cycles := s.cycles + 2 }

/-- The memory form of a read-modify-write: the byte at the effective address is replaced, every other
byte reads as before, the flags are C, Z and N. -/
def ShiftsMemory (r : Nat → Nat) (c : Nat → Bool) (s : State) (f : MemForm) : Prop :=
  DecodesTo f.bytes f.instr ∧
  ∃ t, exec f.instr s = .next t ∧
    (t.mem.read (f.mode.ea s)).toNat = r (s.mem.read (f.mode.ea s)).toNat ∧
    UnchangedOutside [f.mode.ea s] s t ∧
    t = { s with
          mem := t.mem
          flags := { withZN s.flags (t.mem.read (f.mode.ea s)) with
            c := c (s.mem.read (f.mode.ea s)).toNat }
          cycles := s.cycles + f.cycles }

/-- An arithmetic instruction changes A, C, Z, V, N and the counter only. -/
def ArithmeticFrame (s t : State) (f : ReadForm) : Prop :=
  t = { s with
        a := t.a
        flags := { s.flags with c := t.flags.c, z := t.flags.z, v := t.flags.v, n := t.flags.n }
        cycles := s.cycles + f.cycles }

/-- The flags and value are those of an ALU result. -/
def ResultIs (t : State) (r : AluResult) : Prop :=
  t.a = r.value ∧ t.flags.c = r.c ∧ t.flags.z = r.z ∧ t.flags.v = r.v ∧ t.flags.n = r.n

/-- A branch taken on `cond`: to the signed displacement from the next instruction, with its cycles. -/
def Branches (op : Byte) (i : Byte → Instr) (cond : Flags → Bool) : Prop :=
  ∀ (s : State) (d : Byte), DecodesTo [op, d] (i d) ∧
    (cond s.flags = false → exec (i d) s = .next { s with cycles := s.cycles + 2 }) ∧
    (cond s.flags = true → ∃ t, exec (i d) s = .next t ∧
      (t.pc.toNat : Int) = ((s.pc.toNat : Int) + signed d) % 65536 ∧
      t = { s with
            pc := t.pc
            cycles := s.cycles + (if t.pc.toNat / 256 = s.pc.toNat / 256 then 3 else 4) })

/-- A one-byte instruction whose whole effect is given. -/
def OneByte (op : Byte) (i : Instr) (s t : State) : Prop := DecodesTo [op] i ∧ exec i s = .next t

/-- The eight forms of LDA (R140). -/
def ldaForms (s : State) (k : Byte) (w : Word) : List ReadForm :=
  [
    ⟨.ldaImm k, [0xA9, k], .imm k, 2⟩,
    ⟨.ldaZp k, [0xA5, k], .mem (.zp k), 3⟩,
    ⟨.ldaZpX k, [0xB5, k], .mem (.zpX k), 4⟩,
    ⟨.ldaAbs w, [0xAD, loByte w, hiByte w], .mem (.abs w), 4⟩,
    ⟨.ldaAbsX w, [0xBD, loByte w, hiByte w], .mem (.absX w), 4 + crossed (.absX w) s⟩,
    ⟨.ldaAbsY w, [0xB9, loByte w, hiByte w], .mem (.absY w), 4 + crossed (.absY w) s⟩,
    ⟨.ldaIndX k, [0xA1, k], .mem (.indX k), 6⟩,
    ⟨.ldaIndY k, [0xB1, k], .mem (.indY k), 5 + crossed (.indY k) s⟩]

/-- The five forms of LDX (R141). -/
def ldxForms (s : State) (k : Byte) (w : Word) : List ReadForm :=
  [
    ⟨.ldxImm k, [0xA2, k], .imm k, 2⟩,
    ⟨.ldxZp k, [0xA6, k], .mem (.zp k), 3⟩,
    ⟨.ldxZpY k, [0xB6, k], .mem (.zpY k), 4⟩,
    ⟨.ldxAbs w, [0xAE, loByte w, hiByte w], .mem (.abs w), 4⟩,
    ⟨.ldxAbsY w, [0xBE, loByte w, hiByte w], .mem (.absY w), 4 + crossed (.absY w) s⟩]

/-- The five forms of LDY (R142). -/
def ldyForms (s : State) (k : Byte) (w : Word) : List ReadForm :=
  [
    ⟨.ldyImm k, [0xA0, k], .imm k, 2⟩,
    ⟨.ldyZp k, [0xA4, k], .mem (.zp k), 3⟩,
    ⟨.ldyZpX k, [0xB4, k], .mem (.zpX k), 4⟩,
    ⟨.ldyAbs w, [0xAC, loByte w, hiByte w], .mem (.abs w), 4⟩,
    ⟨.ldyAbsX w, [0xBC, loByte w, hiByte w], .mem (.absX w), 4 + crossed (.absX w) s⟩]

/-- The seven forms of STA (R143). -/
def staForms (k : Byte) (w : Word) : List MemForm :=
  [
    ⟨.staZp k, [0x85, k], .zp k, 3⟩,
    ⟨.staZpX k, [0x95, k], .zpX k, 4⟩,
    ⟨.staAbs w, [0x8D, loByte w, hiByte w], .abs w, 4⟩,
    ⟨.staAbsX w, [0x9D, loByte w, hiByte w], .absX w, 5⟩,
    ⟨.staAbsY w, [0x99, loByte w, hiByte w], .absY w, 5⟩,
    ⟨.staIndX k, [0x81, k], .indX k, 6⟩,
    ⟨.staIndY k, [0x91, k], .indY k, 6⟩]

/-- The three forms of STX (R144). -/
def stxForms (k : Byte) (w : Word) : List MemForm :=
  [
    ⟨.stxZp k, [0x86, k], .zp k, 3⟩,
    ⟨.stxZpY k, [0x96, k], .zpY k, 4⟩,
    ⟨.stxAbs w, [0x8E, loByte w, hiByte w], .abs w, 4⟩]

/-- The three forms of STY (R145). -/
def styForms (k : Byte) (w : Word) : List MemForm :=
  [
    ⟨.styZp k, [0x84, k], .zp k, 3⟩,
    ⟨.styZpX k, [0x94, k], .zpX k, 4⟩,
    ⟨.styAbs w, [0x8C, loByte w, hiByte w], .abs w, 4⟩]

/-- The eight forms of ADC (R164). -/
def adcForms (s : State) (k : Byte) (w : Word) : List ReadForm :=
  [
    ⟨.adcImm k, [0x69, k], .imm k, 2⟩,
    ⟨.adcZp k, [0x65, k], .mem (.zp k), 3⟩,
    ⟨.adcZpX k, [0x75, k], .mem (.zpX k), 4⟩,
    ⟨.adcAbs w, [0x6D, loByte w, hiByte w], .mem (.abs w), 4⟩,
    ⟨.adcAbsX w, [0x7D, loByte w, hiByte w], .mem (.absX w), 4 + crossed (.absX w) s⟩,
    ⟨.adcAbsY w, [0x79, loByte w, hiByte w], .mem (.absY w), 4 + crossed (.absY w) s⟩,
    ⟨.adcIndX k, [0x61, k], .mem (.indX k), 6⟩,
    ⟨.adcIndY k, [0x71, k], .mem (.indY k), 5 + crossed (.indY k) s⟩]

/-- The eight forms of SBC (R165). -/
def sbcForms (s : State) (k : Byte) (w : Word) : List ReadForm :=
  [
    ⟨.sbcImm k, [0xE9, k], .imm k, 2⟩,
    ⟨.sbcZp k, [0xE5, k], .mem (.zp k), 3⟩,
    ⟨.sbcZpX k, [0xF5, k], .mem (.zpX k), 4⟩,
    ⟨.sbcAbs w, [0xED, loByte w, hiByte w], .mem (.abs w), 4⟩,
    ⟨.sbcAbsX w, [0xFD, loByte w, hiByte w], .mem (.absX w), 4 + crossed (.absX w) s⟩,
    ⟨.sbcAbsY w, [0xF9, loByte w, hiByte w], .mem (.absY w), 4 + crossed (.absY w) s⟩,
    ⟨.sbcIndX k, [0xE1, k], .mem (.indX k), 6⟩,
    ⟨.sbcIndY k, [0xF1, k], .mem (.indY k), 5 + crossed (.indY k) s⟩]

/-- The eight forms of AND (R166). -/
def andForms (s : State) (k : Byte) (w : Word) : List ReadForm :=
  [
    ⟨.andImm k, [0x29, k], .imm k, 2⟩,
    ⟨.andZp k, [0x25, k], .mem (.zp k), 3⟩,
    ⟨.andZpX k, [0x35, k], .mem (.zpX k), 4⟩,
    ⟨.andAbs w, [0x2D, loByte w, hiByte w], .mem (.abs w), 4⟩,
    ⟨.andAbsX w, [0x3D, loByte w, hiByte w], .mem (.absX w), 4 + crossed (.absX w) s⟩,
    ⟨.andAbsY w, [0x39, loByte w, hiByte w], .mem (.absY w), 4 + crossed (.absY w) s⟩,
    ⟨.andIndX k, [0x21, k], .mem (.indX k), 6⟩,
    ⟨.andIndY k, [0x31, k], .mem (.indY k), 5 + crossed (.indY k) s⟩]

/-- The eight forms of ORA (R167). -/
def oraForms (s : State) (k : Byte) (w : Word) : List ReadForm :=
  [
    ⟨.oraImm k, [0x09, k], .imm k, 2⟩,
    ⟨.oraZp k, [0x05, k], .mem (.zp k), 3⟩,
    ⟨.oraZpX k, [0x15, k], .mem (.zpX k), 4⟩,
    ⟨.oraAbs w, [0x0D, loByte w, hiByte w], .mem (.abs w), 4⟩,
    ⟨.oraAbsX w, [0x1D, loByte w, hiByte w], .mem (.absX w), 4 + crossed (.absX w) s⟩,
    ⟨.oraAbsY w, [0x19, loByte w, hiByte w], .mem (.absY w), 4 + crossed (.absY w) s⟩,
    ⟨.oraIndX k, [0x01, k], .mem (.indX k), 6⟩,
    ⟨.oraIndY k, [0x11, k], .mem (.indY k), 5 + crossed (.indY k) s⟩]

/-- The eight forms of EOR (R168). -/
def eorForms (s : State) (k : Byte) (w : Word) : List ReadForm :=
  [
    ⟨.eorImm k, [0x49, k], .imm k, 2⟩,
    ⟨.eorZp k, [0x45, k], .mem (.zp k), 3⟩,
    ⟨.eorZpX k, [0x55, k], .mem (.zpX k), 4⟩,
    ⟨.eorAbs w, [0x4D, loByte w, hiByte w], .mem (.abs w), 4⟩,
    ⟨.eorAbsX w, [0x5D, loByte w, hiByte w], .mem (.absX w), 4 + crossed (.absX w) s⟩,
    ⟨.eorAbsY w, [0x59, loByte w, hiByte w], .mem (.absY w), 4 + crossed (.absY w) s⟩,
    ⟨.eorIndX k, [0x41, k], .mem (.indX k), 6⟩,
    ⟨.eorIndY k, [0x51, k], .mem (.indY k), 5 + crossed (.indY k) s⟩]

/-- The eight forms of CMP (R169). -/
def cmpForms (s : State) (k : Byte) (w : Word) : List ReadForm :=
  [
    ⟨.cmpImm k, [0xC9, k], .imm k, 2⟩,
    ⟨.cmpZp k, [0xC5, k], .mem (.zp k), 3⟩,
    ⟨.cmpZpX k, [0xD5, k], .mem (.zpX k), 4⟩,
    ⟨.cmpAbs w, [0xCD, loByte w, hiByte w], .mem (.abs w), 4⟩,
    ⟨.cmpAbsX w, [0xDD, loByte w, hiByte w], .mem (.absX w), 4 + crossed (.absX w) s⟩,
    ⟨.cmpAbsY w, [0xD9, loByte w, hiByte w], .mem (.absY w), 4 + crossed (.absY w) s⟩,
    ⟨.cmpIndX k, [0xC1, k], .mem (.indX k), 6⟩,
    ⟨.cmpIndY k, [0xD1, k], .mem (.indY k), 5 + crossed (.indY k) s⟩]

/-- The three forms of CPX (R170). -/
def cpxForms (k : Byte) (w : Word) : List ReadForm :=
  [
    ⟨.cpxImm k, [0xE0, k], .imm k, 2⟩,
    ⟨.cpxZp k, [0xE4, k], .mem (.zp k), 3⟩,
    ⟨.cpxAbs w, [0xEC, loByte w, hiByte w], .mem (.abs w), 4⟩]

/-- The three forms of CPY (R171). -/
def cpyForms (k : Byte) (w : Word) : List ReadForm :=
  [
    ⟨.cpyImm k, [0xC0, k], .imm k, 2⟩,
    ⟨.cpyZp k, [0xC4, k], .mem (.zp k), 3⟩,
    ⟨.cpyAbs w, [0xCC, loByte w, hiByte w], .mem (.abs w), 4⟩]

/-- The two forms of BIT (R172). -/
def bitForms (k : Byte) (w : Word) : List ReadForm :=
  [
    ⟨.bitZp k, [0x24, k], .mem (.zp k), 3⟩,
    ⟨.bitAbs w, [0x2C, loByte w, hiByte w], .mem (.abs w), 4⟩]

/-- The four memory forms of ASL (R191). -/
def aslForms (k : Byte) (w : Word) : List MemForm :=
  [
    ⟨.aslZp k, [0x06, k], .zp k, 5⟩,
    ⟨.aslZpX k, [0x16, k], .zpX k, 6⟩,
    ⟨.aslAbs w, [0x0E, loByte w, hiByte w], .abs w, 6⟩,
    ⟨.aslAbsX w, [0x1E, loByte w, hiByte w], .absX w, 7⟩]

/-- The four memory forms of LSR (R192). -/
def lsrForms (k : Byte) (w : Word) : List MemForm :=
  [
    ⟨.lsrZp k, [0x46, k], .zp k, 5⟩,
    ⟨.lsrZpX k, [0x56, k], .zpX k, 6⟩,
    ⟨.lsrAbs w, [0x4E, loByte w, hiByte w], .abs w, 6⟩,
    ⟨.lsrAbsX w, [0x5E, loByte w, hiByte w], .absX w, 7⟩]

/-- The four memory forms of ROL (R193). -/
def rolForms (k : Byte) (w : Word) : List MemForm :=
  [
    ⟨.rolZp k, [0x26, k], .zp k, 5⟩,
    ⟨.rolZpX k, [0x36, k], .zpX k, 6⟩,
    ⟨.rolAbs w, [0x2E, loByte w, hiByte w], .abs w, 6⟩,
    ⟨.rolAbsX w, [0x3E, loByte w, hiByte w], .absX w, 7⟩]

/-- The four memory forms of ROR (R194). -/
def rorForms (k : Byte) (w : Word) : List MemForm :=
  [
    ⟨.rorZp k, [0x66, k], .zp k, 5⟩,
    ⟨.rorZpX k, [0x76, k], .zpX k, 6⟩,
    ⟨.rorAbs w, [0x6E, loByte w, hiByte w], .abs w, 6⟩,
    ⟨.rorAbsX w, [0x7E, loByte w, hiByte w], .absX w, 7⟩]

/-- The four memory forms of INC (R195). -/
def incForms (k : Byte) (w : Word) : List MemForm :=
  [
    ⟨.incZp k, [0xE6, k], .zp k, 5⟩,
    ⟨.incZpX k, [0xF6, k], .zpX k, 6⟩,
    ⟨.incAbs w, [0xEE, loByte w, hiByte w], .abs w, 6⟩,
    ⟨.incAbsX w, [0xFE, loByte w, hiByte w], .absX w, 7⟩]

/-- The four memory forms of DEC (R196). -/
def decForms (k : Byte) (w : Word) : List MemForm :=
  [
    ⟨.decZp k, [0xC6, k], .zp k, 5⟩,
    ⟨.decZpX k, [0xD6, k], .zpX k, 6⟩,
    ⟨.decAbs w, [0xCE, loByte w, hiByte w], .abs w, 6⟩,
    ⟨.decAbsX w, [0xDE, loByte w, hiByte w], .absX w, 7⟩]

/-- The value of a byte of two decimal digits. -/
def decimalValue (v : Byte) : Nat := v.toNat / 16 * 10 + v.toNat % 16

/-- Both digits are 0 to 9. -/
def ValidDecimal (v : Byte) : Prop := v.toNat / 16 < 10 ∧ v.toNat % 16 < 10

end Sys2Proof.Claims

open Sys2Proof Sys2Proof.Machine Sys2Proof.Claims

/-- Decoding the bytes of any instruction, with any bytes after them, gives that instruction back with every operand bit, and leaves the bytes after it (R80, R84, R87). -/
def Obligations.DecodeOfEncodeIsIdentity : Prop :=
  ∀ (i : Instr) (rest : List Byte), decode (encode i ++ rest) = .ok (i, rest)

/-- Bytes that decode to an instruction are its encoding followed by the rest: no two byte sequences mean the same instruction (R82, R84). -/
def Obligations.DecodedBytesAreTheEncoding : Prop :=
  ∀ (bs : List Byte) (i : Instr) (rest : List Byte),
    decode bs = .ok (i, rest) → bs = encode i ++ rest

/-- One word of each family, its bytes written out from the encoding lines of the spec, decodes to the instruction it stands for. -/
def Obligations.WrittenWordsDecodeAsTheMapSays : Prop :=
  DecodesTo [0xBD, 0x34, 0x12] (.ldaAbsX 0x1234) ∧ DecodesTo [0x96, 0xF0] (.stxZpY 0xF0) ∧
  DecodesTo [0xBA] .tsx ∧ DecodesTo [0x71, 0x40] (.adcIndY 0x40) ∧
  DecodesTo [0x2C, 0x00, 0x30] (.bitAbs 0x3000) ∧ DecodesTo [0xC1, 0x20] (.cmpIndX 0x20) ∧
  DecodesTo [0x0A] .aslAcc ∧ DecodesTo [0xFE, 0xFF, 0x10] (.incAbsX 0x10FF) ∧
  DecodesTo [0xD0, 0x80] (.bne 0x80) ∧ DecodesTo [0x6C, 0xFF, 0x30] (.jmpInd 0x30FF) ∧
  DecodesTo [0x20, 0x00, 0x10] (.jsr 0x1000) ∧ DecodesTo [0x08] .php ∧ DecodesTo [0x00] .brk ∧
  DecodesTo [0xF8] .sed ∧ DecodesTo [0xEA] .nop ∧ decode [0x02] = .error (.undefinedOpcode 0x02)

/-- An instruction is determined by its mnemonic, mode and operand, and every mnemonic, mode and operand the opcode map allows is an instruction (R84, R87). -/
def Obligations.InstructionsAreTheMapEntries : Prop :=
  (∀ i j : Instr, i.raw = j.raw → i = j) ∧
  (∀ i : Instr, i.raw.wellFormed = true) ∧
  (∀ r : RawInstr, r.wellFormed = true → ∃ i : Instr, i.raw = r)

/-- Two instructions whose opcode bytes agree have the same mnemonic, mode and length, and the number of encoded bytes is the length (R80 to R82). -/
def Obligations.OpcodeAloneFixesModeAndLength : Prop :=
  (∀ i : Instr, (encode i).length = 1 + i.mode.operandBytes) ∧
  (∀ i j : Instr, (encode i).head? = (encode j).head? →
    i.mnemonic = j.mnemonic ∧ i.mode = j.mode ∧ i.length = j.length)

/-- When no interrupt is taken and the bytes at PC decode to an instruction, the step is that instruction run with PC moved past its bytes, modulo 65536 (R24, R101, R102, R105). -/
def Obligations.StepRunsTheDecodedInstruction : Prop :=
  ∀ (s : State) (i : Instr) (rest : List Byte),
    s.Undisturbed → decode (bytesAtPc s) = .ok (i, rest) →
    step s = exec i { s with pc := s.pc + BitVec.ofNat 16 i.length }

/-- Fetching one of the 105 undefined bytes faults with the byte and its address; after it PC is past the opcode, one cycle is counted and nothing else has changed. The list of bytes is that of R86; the state after the fault is the spec's own decision D14, which R260 states. -/
def Obligations.UndefinedOpcodeFaults : Prop :=
  ∀ (s : State) (op : Byte), s.Undisturbed → op ∈ undefinedOpcodes → s.mem.read s.pc = op →
    step s = .fault (.undefinedInstruction op s.pc
      { s with pc := s.pc + 1#16, cycles := s.cycles + 1 })

/-- A step is never refused, and it faults only with UndefinedInstruction, code 0, for an undefined byte at PC when no interrupt is taken (R261; the code 0 is the spec's own label, D14). -/
def Obligations.UndefinedOpcodeIsTheOnlyStop : Prop :=
  ∀ s : State,
    (∀ r, step s ≠ .refused r) ∧
    (∀ f, step s = .fault f → s.Undisturbed ∧ s.mem.read s.pc ∈ undefinedOpcodes ∧ f.code = 0 ∧
      f = .undefinedInstruction (s.mem.read s.pc) s.pc f.stateAfter)

/-- A pending NMI is taken whatever I is and clears its latch; a held IRQ is taken if no NMI is and I is 0. The entry is the whole step: PC and the status with bit 4 clear go to the stack, I is set, PC comes from the vector, 7 cycles, and nothing else changes (R264 to R267). The priority, the clearing of the latch, the byte orders and the 7 cycles are the spec's own decisions D2, D3, D5, D6, D11, D12 and D13. -/
def Obligations.InterruptEntryForNmiAndIrq : Prop :=
  ∀ s : State,
    (s.nmiPending = true →
      ∃ t, step s = .next t ∧ HandlerEntered s t s.pc false 0xFFFA#16 false) ∧
    (s.nmiPending = false → s.irqLine = true → s.flags.i = false →
      ∃ t, step s = .next t ∧ HandlerEntered s t s.pc false 0xFFFE#16 false)

/-- While I is 1 and no NMI is pending, the level of `irq_line` changes neither what the step does nor the line itself (R263). -/
def Obligations.MaskedIrqHasNoEffect : Prop :=
  ∀ (s t : State) (level : Bool), s.nmiPending = false → s.flags.i = true → step s = .next t →
    step { s with irqLine := level } = .next { t with irqLine := level }

/-- An instruction that is no control transfer leaves PC at the opcode address plus its length (R24, R105). -/
def Obligations.SequentialPcAfterNonTransfers : Prop :=
  ∀ (s t : State) (i : Instr) (rest : List Byte),
    s.Undisturbed → decode (bytesAtPc s) = .ok (i, rest) → i.mnemonic ∉ controlTransfers →
    step s = .next t → t.pc = s.pc + BitVec.ofNat 16 i.length

/-- Every instruction completes and adds its base total and its page-crossing or branch extra from the opcode table; an interrupt entry adds 7; an undefined opcode adds 1 (R103; the totals decided by the spec itself are D8, D9, D12, D14 and D21). -/
def Obligations.CycleTotalsFollowTheTable : Prop :=
  (∀ (i : Instr) (s : State),
    ∃ t, exec i s = .next t ∧ t.cycles = s.cycles + totalCycles i s) ∧
  (∀ s t : State, ¬ s.Undisturbed → step s = .next t → t.cycles = s.cycles + 7) ∧
  (∀ (s : State) (f : Fault), step s = .fault f → f.stateAfter.cycles = s.cycles + 1)

/-- Every step that answers a next state increases the counter, and a counter ahead by any amount changes nothing but stays ahead by it (R32, R276). -/
def Obligations.CyclesGrowAndAreNeverRead : Prop :=
  ∀ (s t : State) (ahead : Nat), step s = .next t →
    s.cycles < t.cycles ∧
    step { s with cycles := s.cycles + ahead } = .next { t with cycles := t.cycles + ahead }

/-- No instruction writes the stored B flag, and none but PHP reads it: with B changed, every other instruction gives the same next state with B changed (R30, D6). -/
def Obligations.StoredBreakFlagIsWrittenByNoInstruction : Prop :=
  ∀ (i : Instr) (s t : State) (v : Bool), exec i s = .next t →
    t.flags.b = s.flags.b ∧
    (i.mnemonic ≠ .php →
      exec i { s with flags := { s.flags with b := v } } =
        .next { t with flags := { t.flags with b := v } })

/-- From every state whose memory is in canonical form, the next state, or the state a fault leaves, has its memory in canonical form (log entry 5: the form is the model's own way of holding the 65536 bytes of R50). -/
def Obligations.StepKeepsMemoryCanonical : Prop :=
  ∀ s : State, s.Inv →
    (∀ t, step s = .next t → t.Inv) ∧ (∀ f, step s = .fault f → f.stateAfter.Inv)

/-- Every host operation keeps the canonical form of memory, and every launched state has it (log entry 5). -/
def Obligations.HostOperationsKeepMemoryCanonical : Prop :=
  (∀ (act : HostAction) (s : State), s.Inv → (hostAct act s).Inv) ∧
  (∀ (d : LaunchDefaults) (r : LaunchRequest) (s : State), launch d r = some s → s.Inv)

/-- The state after reset meets the invariant (log entry 5: the canonical form is the model's own way of holding the 65536 bytes of R50). -/
def Obligations.ResetStateHasCanonicalMemory : Prop :=
  State.reset.Inv

/-- The reset operation: SP less 3, I and B set, the NMI latch cleared, PC from 0xFFFC and 0xFFFD, 7 cycles, and nothing else changed; in zero-filled memory it goes to 0x0000 (R293, R294: the operation is the spec's own decision D16). -/
def Obligations.ResetOperationSetsWhatTheRuleNames : Prop :=
  ∀ s : State, ∃ t, hostAct .reset s = t ∧
    t.pc.toNat = (s.mem.read 0xFFFC#16).toNat + 256 * (s.mem.read 0xFFFD#16).toNat ∧
    t.sp.toNat = (s.sp.toNat + 253) % 256 ∧
    t = { s with
          sp := t.sp, pc := t.pc, flags := { s.flags with i := true, b := true }
          nmiPending := false, cycles := s.cycles + 7 } ∧
    ((∀ a, s.mem.read a = 0#8) → t.pc = 0#16)

/-- State.reset is the reset operation applied to a launch with nothing given. I, B, PC, the interrupt inputs, memory and the 7 cycles are the rules' (R290, R293, R294); the all-zero LAUNCH_DEFAULTS, and so A, X, Y, SP, C, Z, D, V, N, are the model's choice (log entry 1). -/
def Obligations.ResetStateIsTheResetOfTheDefaultLaunch : Prop :=
  (∃ s, launch Config.launchDefaults {} = some s ∧ State.reset = hostAct .reset s) ∧
  State.reset.flags.i = true ∧ State.reset.flags.b = true ∧ State.reset.pc = 0#16 ∧
  State.reset.nmiPending = false ∧ State.reset.irqLine = false ∧ State.reset.cycles = 7 ∧
  (∀ a, State.reset.mem.read a = 0#8)

/-- The launch: a request out of range gives no state; otherwise registers and flags are the given ones or the defaults, memory is zero but for the overlay and the program, the program wins and wraps, the counter is 0 and both requests are clear (R290; what the source leaves out is the spec's own decision D15). An overlay address is taken only where the overlay names it once, as a mapping does (log entry 6). That a flag above 1 and a program or overlay byte above 255 are out of range, and that a program longer than memory is accepted, the model reads from R27, R50 and R290 by inference (log entry 9). -/
def Obligations.LaunchBuildsTheHarnessState : Prop :=
  ∀ (d : LaunchDefaults) (r : LaunchRequest),
    (r.wellFormed = false → launch d r = none) ∧
    (r.wellFormed = true → ∃ s, launch d r = some s ∧
      s.pc.toNat = r.pc.getD d.pc.toNat ∧ s.a.toNat = r.a.getD d.a.toNat ∧
      s.x.toNat = r.x.getD d.x.toNat ∧ s.y.toNat = r.y.getD d.y.toNat ∧
      s.sp.toNat = r.sp.getD d.sp.toNat ∧
      s.flags.c.toNat = r.c.getD d.c.toNat ∧ s.flags.z.toNat = r.z.getD d.z.toNat ∧
      s.flags.i.toNat = r.i.getD d.i.toNat ∧ s.flags.d.toNat = r.d.getD d.d.toNat ∧
      s.flags.b.toNat = r.b.getD d.b.toNat ∧ s.flags.v.toNat = r.v.getD d.v.toNat ∧
      s.flags.n.toNat = r.n.getD d.n.toNat ∧
      s.cycles = 0 ∧ s.irqLine = false ∧ s.nmiPending = false ∧
      (∀ k v, r.program[k]? = some v → r.program.length - k ≤ 65536 →
        (s.mem.read (s.pc + BitVec.ofNat 16 k)).toNat = v) ∧
      (∀ a : Word, (∀ k, k < r.program.length → a ≠ s.pc + BitVec.ofNat 16 k) →
        (∀ pre v post, r.overlay = pre ++ (a.toNat, v) :: post →
          (∀ p ∈ pre ++ post, p.1 ≠ a.toNat) → (s.mem.read a).toNat = v) ∧
        ((∀ p ∈ r.overlay, p.1 ≠ a.toNat) → s.mem.read a = 0#8)))

/-- A poke of memory writes one byte; an image with distinct addresses is read back and leaves every other byte; memory reset zero-fills. None of them touches another field (R50, R292). -/
def Obligations.HostMemoryOperationsWriteOnlyMemory : Prop :=
  ∀ s : State,
    (∀ (a : Word) (v : Byte), ∃ t, hostAct (.pokeMemory a v) s = t ∧ t = { s with mem := t.mem } ∧
      t.mem.read a = v ∧ UnchangedOutside [a] s t) ∧
    (∀ image : List (Word × Byte), ∃ t, hostAct (.load image) s = t ∧ t = { s with mem := t.mem } ∧
      ((image.map Prod.fst).Nodup → ∀ p ∈ image, t.mem.read p.1 = p.2) ∧
      UnchangedOutside (image.map Prod.fst) s t) ∧
    (∃ t, hostAct .memoryReset s = t ∧ t = { s with mem := t.mem } ∧ ∀ a, t.mem.read a = 0#8)

/-- A step never writes `irq_line` and leaves `nmi_pending` clear; reset keeps the line and clears the latch; the host sets and clears the line and sets the latch (R33, R34: the spec's own decision D11). -/
def Obligations.InterruptInputsBelongToTheHost : Prop :=
  ∀ s : State,
    (∀ t, step s = .next t → t.irqLine = s.irqLine ∧ t.nmiPending = false) ∧
    (hostAct .reset s).irqLine = s.irqLine ∧ (hostAct .reset s).nmiPending = false ∧
    (∀ b, hostAct (.setIrq b) s = { s with irqLine := b }) ∧
    hostAct .requestNmi s = { s with nmiPending := true }

/-- Zero page: the operand byte. Zero page,X and zero page,Y: the operand plus the index modulo 256. No page is crossed (R113, R114). -/
def Obligations.ZeroPageAddressesWrapInPageZero : Prop :=
  ∀ (s : State) (b : Byte),
    ((MemMode.zp b).ea s).toNat = b.toNat ∧ (MemMode.zp b).px s = false ∧
    ((MemMode.zpX b).ea s).toNat = (b.toNat + s.x.toNat) % 256 ∧ (MemMode.zpX b).px s = false ∧
    ((MemMode.zpY b).ea s).toNat = (b.toNat + s.y.toNat) % 256 ∧ (MemMode.zpY b).px s = false

/-- Absolute: the operand. Absolute,X and absolute,Y: the operand plus the index modulo 65536, and px is 1 exactly when the high byte changes (R115, R116). -/
def Obligations.AbsoluteIndexedAddressesCarry : Prop :=
  ∀ (s : State) (w : Word),
    (MemMode.abs w).ea s = w ∧ (MemMode.abs w).px s = false ∧
    ((MemMode.absX w).ea s).toNat = (w.toNat + s.x.toNat) % 65536 ∧
    ((MemMode.absX w).px s = true ↔ ((MemMode.absX w).ea s).toNat / 256 ≠ w.toNat / 256) ∧
    ((MemMode.absY w).ea s).toNat = (w.toNat + s.y.toNat) % 65536 ∧
    ((MemMode.absY w).px s = true ↔ ((MemMode.absY w).ea s).toNat / 256 ≠ w.toNat / 256)

/-- (Indirect,X): the word at (p + X) mod 256, its high byte at the next zero-page byte, wrapping. (Indirect),Y: the word at p, wrapping alike, plus Y modulo 65536, with px when the page changes (R117, R118). The byte order of the pointers is the spec's own decision D2. -/
def Obligations.IndirectAddressesReadZeroPagePointers : Prop :=
  ∀ (s : State) (p : Byte),
    ((MemMode.indX p).ea s).toNat = byteAt s ((p.toNat + s.x.toNat) % 256)
      + 256 * byteAt s ((p.toNat + s.x.toNat + 1) % 256) ∧
    (MemMode.indX p).px s = false ∧
    ((MemMode.indY p).ea s).toNat
      = (byteAt s p.toNat + 256 * byteAt s ((p.toNat + 1) % 256) + s.y.toNat) % 65536 ∧
    ((MemMode.indY p).px s = true ↔
      ((MemMode.indY p).ea s).toNat / 256 ≠ byteAt s ((p.toNat + 1) % 256))

/-- AddDec on every pair of bytes and carry, digit by digit: each digit sum of ten or more is corrected by six and carries; N and V come from the sum before the high correction, Z from the binary sum. On valid decimal operands the result and C are the decimal sum and its carry (R161: the algorithm is the spec's own decision D10). -/
def Obligations.DecimalAddIsDigitwise : Prop :=
  ∀ (a b : Byte) (c : Bool),
    let low := a.toNat % 16 + b.toNat % 16 + c.toNat
    let high := a.toNat / 16 + b.toNat / 16 + (if 10 ≤ low then 1 else 0)
    (addDec a b c).value.toNat
        = (if 10 ≤ high then high + 6 else high) % 16 * 16
          + (if 10 ≤ low then low + 6 else low) % 16 ∧
    (addDec a b c).c = decide (10 ≤ high) ∧
    (addDec a b c).n = decide (8 ≤ high % 16) ∧
    (addDec a b c).v = (decide (8 ≤ a.toNat / 16) == decide (8 ≤ b.toNat / 16)
        && !(decide (8 ≤ a.toNat / 16) == decide (8 ≤ high % 16))) ∧
    (addDec a b c).z = decide ((a.toNat + b.toNat + c.toNat) % 256 = 0) ∧
    (ValidDecimal a → ValidDecimal b →
      decimalValue (addDec a b c).value
          = (decimalValue a + decimalValue b + c.toNat) % 100 ∧
      (addDec a b c).c = decide (100 ≤ decimalValue a + decimalValue b + c.toNat))

/-- SubDec on every pair of bytes and carry, digit by digit: a digit difference below zero is corrected by six and borrows; the flags are those of the binary subtraction. On valid decimal operands the result is the decimal difference modulo 100 and C is no borrow (R162: the algorithm is the spec's own decision D10). -/
def Obligations.DecimalSubtractIsDigitwise : Prop :=
  ∀ (a b : Byte) (c : Bool),
    let low : Int := (a.toNat % 16 : Nat) - (b.toNat % 16 : Nat) + c.toNat - 1
    let high : Int := (a.toNat / 16 : Nat) - (b.toNat / 16 : Nat) - (if low < 0 then 1 else 0)
    ((subDec a b c).value.toNat : Int)
        = (if high < 0 then high - 6 else high) % 16 * 16 + (if low < 0 then low - 6 else low) % 16 ∧
    (subDec a b c).c = decide (0 ≤ (a.toNat : Int) - b.toNat + c.toNat - 1) ∧
    (subDec a b c).z = decide (((a.toNat : Int) - b.toNat + c.toNat - 1) % 256 = 0) ∧
    (subDec a b c).n = decide (128 ≤ ((a.toNat : Int) - b.toNat + c.toNat - 1) % 256) ∧
    (subDec a b c).v = decide (signed a - signed b + c.toNat - 1 < -128
        ∨ 127 < signed a - signed b + c.toNat - 1) ∧
    (ValidDecimal a → ValidDecimal b →
      (decimalValue (subDec a b c).value : Int)
          = ((decimalValue a : Int) - decimalValue b + c.toNat - 1) % 100 ∧
      ((subDec a b c).c = true ↔ (decimalValue b : Int) + 1 ≤ decimalValue a + c.toNat))

/-- LDA in its eight forms: A is the operand, Z and N are of it, and nothing else changes but the counter (R140). -/
def Obligations.LdaLoadsA : Prop :=
  ∀ (s : State) (k : Byte) (w : Word), ∀ f ∈ ldaForms s k w,
    LoadsInto (fun s v => { s with a := v }) s f

/-- LDX and LDY in their five forms each (R141, R142). -/
def Obligations.LdxAndLdyLoadTheirRegister : Prop :=
  ∀ (s : State) (k : Byte) (w : Word),
    (∀ f ∈ ldxForms s k w, LoadsInto (fun s v => { s with x := v }) s f) ∧
    (∀ f ∈ ldyForms s k w, LoadsInto (fun s v => { s with y := v }) s f)

/-- STA, STX and STY in every form: the register goes to the effective address, every other byte reads as before, no flag or register changes (R143 to R145). -/
def Obligations.StoresWriteOneByteAndNoFlag : Prop :=
  ∀ (s : State) (k : Byte) (w : Word),
    (∀ f ∈ staForms k w, Stores s.a s f) ∧ (∀ f ∈ stxForms k w, Stores s.x s f) ∧
    (∀ f ∈ styForms k w, Stores s.y s f)

/-- TAX, TAY, TSX, TXA and TYA set Z and N of the copied byte; TXS sets no flag; each takes 2 cycles (R146 to R151). -/
def Obligations.TransfersCopyRegisters : Prop :=
  ∀ s : State,
    OneByte 0xAA .tax s
      { s with x := s.a, flags := withZN s.flags s.a, cycles := s.cycles + 2 } ∧
    OneByte 0xA8 .tay s
      { s with y := s.a, flags := withZN s.flags s.a, cycles := s.cycles + 2 } ∧
    OneByte 0xBA .tsx s
      { s with x := s.sp, flags := withZN s.flags s.sp, cycles := s.cycles + 2 } ∧
    OneByte 0x8A .txa s
      { s with a := s.x, flags := withZN s.flags s.x, cycles := s.cycles + 2 } ∧
    OneByte 0x9A .txs s { s with sp := s.x, cycles := s.cycles + 2 } ∧
    OneByte 0x98 .tya s
      { s with a := s.y, flags := withZN s.flags s.y, cycles := s.cycles + 2 }

/-- ADC in its eight forms. With D = 0: the sum modulo 256, C its carry-out, V signed overflow, by R160's formula and as a sum outside -128 to 127, Z and N of the result. With D = 1: AddDec (R160, R164), whose algorithm, the spec's decision D10, DecimalAddIsDigitwise states. -/
def Obligations.AdcAddsWithCarry : Prop :=
  ∀ (s : State) (k : Byte) (w : Word), ∀ f ∈ adcForms s k w,
    let m := f.operand.value s
    DecodesTo f.bytes f.instr ∧
    ∃ t, exec f.instr s = .next t ∧ ArithmeticFrame s t f ∧
      (s.flags.d = false →
        t.a.toNat = (s.a.toNat + m.toNat + s.flags.c.toNat) % 256 ∧
        t.flags.c = decide (255 < s.a.toNat + m.toNat + s.flags.c.toNat) ∧
        t.flags.v = decide ((s.a ^^^ t.a) &&& (m ^^^ t.a) &&& 0x80#8 ≠ 0#8) ∧
        t.flags.v = decide (signed s.a + signed m + s.flags.c.toNat < -128
          ∨ 127 < signed s.a + signed m + s.flags.c.toNat) ∧
        t.flags.z = decide (t.a.toNat = 0) ∧ t.flags.n = decide (128 ≤ t.a.toNat)) ∧
      (s.flags.d = true → ResultIs t (addDec s.a m s.flags.c))

/-- SBC in its eight forms. With D = 0: the difference less the borrow modulo 256, C no borrow, V by R165's formula, Z and N of the result. With D = 1: SubDec (R165), whose algorithm, the spec's decision D10, DecimalSubtractIsDigitwise states. -/
def Obligations.SbcSubtractsWithBorrow : Prop :=
  ∀ (s : State) (k : Byte) (w : Word), ∀ f ∈ sbcForms s k w,
    let m := f.operand.value s
    let diff : Int := (s.a.toNat : Int) - m.toNat - (1 - s.flags.c.toNat)
    DecodesTo f.bytes f.instr ∧
    ∃ t, exec f.instr s = .next t ∧ ArithmeticFrame s t f ∧
      (s.flags.d = false →
        (t.a.toNat : Int) = diff % 256 ∧ t.flags.c = decide (0 ≤ diff) ∧
        t.flags.v = decide ((s.a ^^^ m) &&& (s.a ^^^ t.a) &&& 0x80#8 ≠ 0#8) ∧
        t.flags.z = decide (t.a.toNat = 0) ∧ t.flags.n = decide (128 ≤ t.a.toNat)) ∧
      (s.flags.d = true → ResultIs t (subDec s.a m s.flags.c))

/-- AND, ORA and EOR in their eight forms each (R166 to R168). -/
def Obligations.LogicalInstructionsCombineWithA : Prop :=
  ∀ (s : State) (k : Byte) (w : Word),
    (∀ f ∈ andForms s k w, PutsInA (fun m => s.a &&& m) s f) ∧
    (∀ f ∈ oraForms s k w, PutsInA (fun m => s.a ||| m) s f) ∧
    (∀ f ∈ eorForms s k w, PutsInA (fun m => s.a ^^^ m) s f)

/-- CMP, CPX and CPY in every form: C is unsigned at-least, Z equality, N bit 7 of the wrapped difference; no register changes, V keeps its value, D has no effect (R163, R169 to R171). -/
def Obligations.ComparesSetFlagsOnly : Prop :=
  ∀ (s : State) (k : Byte) (w : Word),
    (∀ f ∈ cmpForms s k w, Compares s.a s f) ∧ (∀ f ∈ cpxForms k w, Compares s.x s f) ∧
    (∀ f ∈ cpyForms k w, Compares s.y s f)

/-- BIT in its two forms: Z from A AND the operand, N and V from bits 7 and 6 of the operand; A and C keep their values (R172). -/
def Obligations.BitTestsTheOperand : Prop :=
  ∀ (s : State) (k : Byte) (w : Word), ∀ f ∈ bitForms k w,
    let m := f.operand.value s
    DecodesTo f.bytes f.instr ∧
    exec f.instr s = .next { s with
      flags := { s.flags with
        z := decide (∀ i : Fin 8, ¬ (s.a.toNat.testBit i = true ∧ m.toNat.testBit i = true))
        n := decide (128 ≤ m.toNat)
        v := decide (64 ≤ m.toNat % 128) }
      cycles := s.cycles + f.cycles }

/-- ASL and ROL, accumulator and memory forms: twice the byte, plus the old C for ROL, modulo 256; C is the old bit 7; Z and N of the result (R191, R193). The absolute,X total of 7 is the spec's own decision D8. -/
def Obligations.LeftShiftsDoubleTheByte : Prop :=
  ∀ (s : State) (k : Byte) (w : Word),
    ShiftsA .aslAcc 0x0A (fun v => 2 * v % 256) (fun v => decide (128 ≤ v)) s ∧
    (∀ f ∈ aslForms k w,
      ShiftsMemory (fun v => 2 * v % 256) (fun v => decide (128 ≤ v)) s f) ∧
    ShiftsA .rolAcc 0x2A (fun v => (2 * v + s.flags.c.toNat) % 256) (fun v => decide (128 ≤ v)) s ∧
    (∀ f ∈ rolForms k w,
      ShiftsMemory (fun v => (2 * v + s.flags.c.toNat) % 256) (fun v => decide (128 ≤ v)) s f)

/-- LSR and ROR, accumulator and memory forms: half the byte, plus 128 times the old C for ROR; C is the old bit 0; Z and N of the result (R192, R194). The absolute,X total of 7 is the spec's own decision D8. -/
def Obligations.RightShiftsHalveTheByte : Prop :=
  ∀ (s : State) (k : Byte) (w : Word),
    ShiftsA .lsrAcc 0x4A (fun v => v / 2) (fun v => decide (v % 2 = 1)) s ∧
    (∀ f ∈ lsrForms k w, ShiftsMemory (fun v => v / 2) (fun v => decide (v % 2 = 1)) s f) ∧
    ShiftsA .rorAcc 0x6A (fun v => v / 2 + 128 * s.flags.c.toNat) (fun v => decide (v % 2 = 1)) s ∧
    (∀ f ∈ rorForms k w,
      ShiftsMemory (fun v => v / 2 + 128 * s.flags.c.toNat) (fun v => decide (v % 2 = 1)) s f)

/-- INC and DEC in their four forms each: the byte plus or minus 1 modulo 256, Z and N of it; C and V keep their values (R195, R196). The absolute,X total of 7 is the spec's own decision D8. -/
def Obligations.IncAndDecChangeMemoryByOne : Prop :=
  ∀ (s : State) (k : Byte) (w : Word),
    (∀ f ∈ incForms k w, ShiftsMemory (fun v => (v + 1) % 256) (fun _ => s.flags.c) s f) ∧
    (∀ f ∈ decForms k w, ShiftsMemory (fun v => (v + 255) % 256) (fun _ => s.flags.c) s f)

/-- INX, INY, DEX and DEY: the register plus or minus 1 modulo 256, Z and N of it, 2 cycles (R197 to R200). -/
def Obligations.IndexRegistersCountByOne : Prop :=
  ∀ s : State,
    OneByte 0xE8 .inx s { s with
      x := BitVec.ofNat 8 (s.x.toNat + 1)
      flags := withZN s.flags (BitVec.ofNat 8 (s.x.toNat + 1)), cycles := s.cycles + 2 } ∧
    OneByte 0xC8 .iny s { s with
      y := BitVec.ofNat 8 (s.y.toNat + 1)
      flags := withZN s.flags (BitVec.ofNat 8 (s.y.toNat + 1)), cycles := s.cycles + 2 } ∧
    OneByte 0xCA .dex s { s with
      x := BitVec.ofNat 8 (s.x.toNat + 255)
      flags := withZN s.flags (BitVec.ofNat 8 (s.x.toNat + 255)), cycles := s.cycles + 2 } ∧
    OneByte 0x88 .dey s { s with
      y := BitVec.ofNat 8 (s.y.toNat + 255)
      flags := withZN s.flags (BitVec.ofNat 8 (s.y.toNat + 255)), cycles := s.cycles + 2 }

/-- The eight branches: taken, PC is the address after the branch plus the signed displacement modulo 65536, for 3 cycles in the same page and 4 in another; not taken, PC stays, for 2. No flag, register or byte of memory changes (R120, R210 to R218). The page compared with is that of the address after the branch, the spec's own decision D9. -/
def Obligations.BranchesFollowTheirFlag : Prop :=
  Branches 0x90 .bcc (fun f => !f.c) ∧ Branches 0xB0 .bcs (fun f => f.c) ∧
  Branches 0xF0 .beq (fun f => f.z) ∧ Branches 0xD0 .bne (fun f => !f.z) ∧
  Branches 0x30 .bmi (fun f => f.n) ∧ Branches 0x10 .bpl (fun f => !f.n) ∧
  Branches 0x50 .bvc (fun f => !f.v) ∧ Branches 0x70 .bvs (fun f => f.v)

/-- JMP absolute goes to its operand in 3 cycles; JMP indirect in 5 to the word whose low byte is at the pointer and whose high byte is at the next byte of the pointer's own page (R119, R219). The byte order of the pointer is the spec's own decision D2. -/
def Obligations.JmpGoesToItsTarget : Prop :=
  ∀ (s : State) (w : Word),
    DecodesTo [0x4C, loByte w, hiByte w] (.jmpAbs w) ∧
    exec (.jmpAbs w) s = .next { s with pc := w, cycles := s.cycles + 3 } ∧
    DecodesTo [0x6C, loByte w, hiByte w] (.jmpInd w) ∧
    ∃ t, exec (.jmpInd w) s = .next t ∧
      t.pc.toNat = byteAt s w.toNat
        + 256 * byteAt s (w.toNat / 256 * 256 + (w.toNat % 256 + 1) % 256) ∧
      t = { s with pc := t.pc, cycles := s.cycles + 5 }

/-- JSR: the address of its last byte goes to the stack, high byte first, SP drops by 2, PC is the operand, 6 cycles; every other byte of memory reads as before (R220; the push order is the spec's own decision D3). -/
def Obligations.JsrPushesTheReturnAddress : Prop :=
  ∀ (s : State) (w : Word),
    DecodesTo [0x20, loByte w, hiByte w] (.jsr w) ∧
    ∃ t, exec (.jsr w) s = .next t ∧
      t = { s with sp := s.sp - 2#8, pc := w, mem := t.mem, cycles := s.cycles + 6 } ∧
      (t.mem.read (stackAddr s.sp)).toNat = (s.pc.toNat + 65535) % 65536 / 256 ∧
      (t.mem.read (stackAddr (s.sp - 1#8))).toNat = (s.pc.toNat + 65535) % 256 ∧
      UnchangedOutside [stackAddr s.sp, stackAddr (s.sp - 1#8)] s t

/-- RTS: PC is the pulled word, low byte first, plus 1 modulo 65536; SP rises by 2; 6 cycles (R221). The pull order is the spec's own decision D3. -/
def Obligations.RtsReturnsPastThePulledAddress : Prop :=
  ∀ s : State,
    DecodesTo [0x60] .rts ∧
    ∃ t, exec .rts s = .next t ∧
      t.pc.toNat = ((s.mem.read (stackAddr (s.sp + 1#8))).toNat
        + 256 * (s.mem.read (stackAddr (s.sp + 2#8))).toNat + 1) % 65536 ∧
      t = { s with sp := s.sp + 2#8, pc := t.pc, cycles := s.cycles + 6 }

/-- Two steps, a JSR and the RTS at its target, leave PC one past the JSR and SP as it was, in 12 cycles (R222). -/
def Obligations.JsrThenRtsRoundTrip : Prop :=
  ∀ (s t : State) (w : Word) (rest : List Byte),
    s.Undisturbed → decode (bytesAtPc s) = .ok (.jsr w, rest) → step s = .next t →
    t.mem.read w = 0x60#8 →
    ∃ u, step t = .next u ∧ u.pc = s.pc + 3#16 ∧ u.sp = s.sp ∧ u.cycles = s.cycles + 12

/-- PHA writes A to the stack slot and lowers SP, with no flag changed; PLA raises SP and loads A with Z and N (R230, R231; the flags of PLA are the spec's own decision D22). -/
def Obligations.PhaAndPlaMoveA : Prop :=
  ∀ s : State,
    DecodesTo [0x48] .pha ∧
    (∃ t, exec .pha s = .next t ∧
      t = { s with sp := s.sp - 1#8, mem := t.mem, cycles := s.cycles + 3 } ∧
      t.mem.read (stackAddr s.sp) = s.a ∧ UnchangedOutside [stackAddr s.sp] s t) ∧
    OneByte 0x68 .pla s { s with
      a := s.mem.read (stackAddr (s.sp + 1#8)), sp := s.sp + 1#8
      flags := withZN s.flags (s.mem.read (stackAddr (s.sp + 1#8))), cycles := s.cycles + 4 }

/-- Two steps, PHA and PLA, leave A and SP as they were in 7 cycles, with Z and N of A (R234). The flags of PLA are the spec's own decision D22. -/
def Obligations.PhaThenPlaRestoresA : Prop :=
  ∀ (s t : State), s.Undisturbed → s.mem.read s.pc = 0x48#8 → step s = .next t →
    t.mem.read t.pc = 0x68#8 →
    ∃ u, step t = .next u ∧ u.a = s.a ∧ u.sp = s.sp ∧ u.cycles = s.cycles + 7 ∧
      u.flags = withZN s.flags s.a

/-- PHP pushes the flags bit by bit, bit 4 the stored B and bit 5 set; no flag changes (R232; bits 4 and 5 are the spec's own decisions D5 and D6). -/
def Obligations.PhpPushesThePackedStatus : Prop :=
  ∀ s : State,
    DecodesTo [0x08] .php ∧
    ∃ t, exec .php s = .next t ∧
      t = { s with sp := s.sp - 1#8, mem := t.mem, cycles := s.cycles + 3 } ∧
      StatusByte (t.mem.read (stackAddr s.sp)) s.flags s.flags.b ∧
      UnchangedOutside [stackAddr s.sp] s t

/-- PLP loads C, Z, I, D, V and N from bits 0, 1, 2, 3, 6 and 7 of the pulled byte and keeps B (R233). -/
def Obligations.PlpLoadsSixFlags : Prop :=
  ∀ s : State,
    let m := (s.mem.read (stackAddr (s.sp + 1#8))).toNat
    OneByte 0x28 .plp s { s with
      sp := s.sp + 1#8
      flags :=
        { c := decide (m % 2 = 1), z := decide (m / 2 % 2 = 1), i := decide (m / 4 % 2 = 1)
          d := decide (m / 8 % 2 = 1), b := s.flags.b, v := decide (m / 64 % 2 = 1)
          n := decide (128 ≤ m) }
      cycles := s.cycles + 4 }

/-- BRK: the opcode address plus 2 and the status with bit 4 set go to the stack, I is set, PC comes from 0xFFFE, SP drops by 3, 7 cycles; whether I was set does not matter, and nothing else changes (R236). PC stands at the opcode address plus 1, so the address pushed is PC plus 1. The address, the byte orders, the stored B, D and the 7 cycles are the spec's own decisions D2 to D6, D12 and D13. -/
def Obligations.BrkEntersItsHandler : Prop :=
  ∀ s : State,
    DecodesTo [0x00] .brk ∧
    ∃ t, exec .brk s = .next t ∧ HandlerEntered s t (s.pc + 1#16) true 0xFFFE#16 s.nmiPending

/-- RTI pulls the status, with B and bit 5 ignored, then PC, low byte first and not incremented; SP rises by 3; 6 cycles (R237; the ignored bits and the cycles are the spec's own decisions D7 and D12). -/
def Obligations.RtiRestoresStatusAndPc : Prop :=
  ∀ s : State,
    let m := (s.mem.read (stackAddr (s.sp + 1#8))).toNat
    DecodesTo [0x40] .rti ∧
    ∃ t, exec .rti s = .next t ∧
      t.pc.toNat = (s.mem.read (stackAddr (s.sp + 2#8))).toNat
        + 256 * (s.mem.read (stackAddr (s.sp + 3#8))).toNat ∧
      t = { s with
            sp := s.sp + 3#8, pc := t.pc
            flags :=
              { c := decide (m % 2 = 1), z := decide (m / 2 % 2 = 1), i := decide (m / 4 % 2 = 1)
                d := decide (m / 8 % 2 = 1), b := s.flags.b, v := decide (m / 64 % 2 = 1)
                n := decide (128 ≤ m) }
            cycles := s.cycles + 6 }

/-- RTI from any state that still has the frame of an entry on the stack at the same SP resumes what was interrupted: PC, SP and all flags as before an IRQ or NMI entry, and the opcode address plus 2 after BRK (R268, R269). The address BRK pushes and the ignored bits 4 and 5 of the pulled status are the spec's own decisions D4 and D7. -/
def Obligations.ReturnFromHandlerResumesTheInterrupted : Prop :=
  ∀ s t u : State,
    u.sp = t.sp → u.flags.b = s.flags.b →
    (∀ a ∈ [stackAddr s.sp, stackAddr (s.sp - 1#8), stackAddr (s.sp - 2#8)],
      u.mem.read a = t.mem.read a) →
    (¬ s.Undisturbed → step s = .next t → exec .rti u = .next { u with
      sp := s.sp, pc := s.pc, flags := s.flags, cycles := u.cycles + 6 }) ∧
    (exec .brk s = .next t → exec .rti u = .next { u with
      sp := s.sp, pc := s.pc + 1#16, flags := s.flags, cycles := u.cycles + 6 })

/-- SEC, CLC, SEI, CLI, SED, CLD and CLV set or clear their one flag; NOP does nothing; each takes 2 cycles (R240 to R247). -/
def Obligations.FlagInstructionsAndNop : Prop :=
  ∀ s : State,
    OneByte 0x38 .sec s { s with flags := { s.flags with c := true }, cycles := s.cycles + 2 } ∧
    OneByte 0x18 .clc s { s with flags := { s.flags with c := false }, cycles := s.cycles + 2 } ∧
    OneByte 0x78 .sei s { s with flags := { s.flags with i := true }, cycles := s.cycles + 2 } ∧
    OneByte 0x58 .cli s { s with flags := { s.flags with i := false }, cycles := s.cycles + 2 } ∧
    OneByte 0xF8 .sed s { s with flags := { s.flags with d := true }, cycles := s.cycles + 2 } ∧
    OneByte 0xD8 .cld s { s with flags := { s.flags with d := false }, cycles := s.cycles + 2 } ∧
    OneByte 0xB8 .clv s { s with flags := { s.flags with v := false }, cycles := s.cycles + 2 } ∧
    OneByte 0xEA .nop s { s with cycles := s.cycles + 2 }

/-- A, X, Y and SP change only under the instructions the spec lists as their writers (R21 to R23). -/
def Obligations.RegistersAreWrittenOnlyByTheirWriters : Prop :=
  ∀ (i : Instr) (s t : State), exec i s = .next t →
    (i.mnemonic ∉ [.lda, .txa, .tya, .pla, .adc, .sbc, .and, .ora, .eor] →
      i.mode ≠ .accumulator → t.a = s.a) ∧
    (i.mnemonic ∉ [.ldx, .tax, .tsx, .inx, .dex] → t.x = s.x) ∧
    (i.mnemonic ∉ [.ldy, .tay, .iny, .dey] → t.y = s.y) ∧
    (i.mnemonic ∉ [.txs, .pha, .pla, .php, .plp, .jsr, .rts, .brk, .rti] → t.sp = s.sp)

/-- Each flag changes only under the instructions the spec lists as its writers; BRK is the one entry among them that writes I (R30). -/
def Obligations.FlagsAreWrittenOnlyByTheirWriters : Prop :=
  ∀ (i : Instr) (s t : State), exec i s = .next t →
    (i.mnemonic ∉ [.adc, .sbc, .cmp, .cpx, .cpy, .asl, .lsr, .rol, .ror, .sec, .clc, .plp, .rti] →
      t.flags.c = s.flags.c) ∧
    (i.mnemonic ∉ [.lda, .ldx, .ldy, .tax, .tay, .tsx, .txa, .tya, .pla, .adc, .sbc, .and, .ora,
        .eor, .cmp, .cpx, .cpy, .bit, .asl, .lsr, .rol, .ror, .inc, .dec, .inx, .iny, .dex, .dey,
        .plp, .rti] →
      t.flags.z = s.flags.z ∧ t.flags.n = s.flags.n) ∧
    (i.mnemonic ∉ [.sei, .cli, .plp, .rti, .brk] → t.flags.i = s.flags.i) ∧
    (i.mnemonic ∉ [.sed, .cld, .plp, .rti] → t.flags.d = s.flags.d) ∧
    (i.mnemonic ∉ [.adc, .sbc, .bit, .clv, .plp, .rti] → t.flags.v = s.flags.v)

/-- Every byte of memory outside the addresses an instruction stores to reads after it as before it; an instruction that stores nothing leaves all of memory (R55, R56). -/
def Obligations.MemoryChangesOnlyWhereInstructionsStore : Prop :=
  ∀ (i : Instr) (s t : State), exec i s = .next t → UnchangedOutside (storeTargets i s) s t
end

