-- ==== Sys2Proof/Laws/Memory.lean ====
section
/-! SUPPORT. The laws of memory: what a read gives after a write, that every operation keeps the
canonical form, and that canonical memories that read alike are equal. -/

namespace Sys2Proof.Machine

theorem lookupCell_eraseCell (cells : List Host.Cell) (a k : Nat) :
    lookupCell (eraseCell cells a) k = if k = a then unlistedByte else lookupCell cells k := by
  induction cells with
  | nil => simp [eraseCell, lookupCell]
  | cons cell rest ih =>
    obtain ⟨j, u⟩ := cell
    simp only [eraseCell] at ih
    by_cases hj : j = a
    · subst hj
      simp only [eraseCell, List.filter, decide_true, Bool.not_true, lookupCell, ih]
      split
      · rfl
      · simp_all [eq_comm]
    · simp only [eraseCell, List.filter, hj, decide_false, Bool.not_false, lookupCell, ih]
      split
      · subst_vars; simp [hj]
      · rfl

theorem lookupCell_insertCell (cells : List Host.Cell) (a k : Nat) (v : Byte) :
    lookupCell (insertCell cells a v) k = if k = a then v else lookupCell cells k := by
  induction cells with
  | nil => simp [insertCell, lookupCell, eq_comm]
  | cons cell rest ih =>
    obtain ⟨j, u⟩ := cell
    simp only [insertCell]
    split
    · simp [lookupCell, eq_comm]
    · split
      · subst_vars
        simp only [lookupCell, eq_comm (a := k)]
        split <;> simp_all
      · simp only [lookupCell, ih]
        split
        · subst_vars; simp_all [eq_comm]
        · rfl

/-- A read after a write: the written byte at its address, the old byte at every other (R56). -/
theorem Memory.read_write (m : Memory) (a b : Word) (v : Byte) :
    (m.write a v).read b = if b = a then v else m.read b := by
  simp only [Memory.read, Memory.write]
  split
  · rw [lookupCell_eraseCell]; simp_all [BitVec.toNat_inj]
  · rw [lookupCell_insertCell]; simp [BitVec.toNat_inj]

@[simp] theorem Memory.read_write_same (m : Memory) (a : Word) (v : Byte) :
    (m.write a v).read a = v := by
  rw [Memory.read_write, if_pos rfl]

theorem Memory.read_write_other (m : Memory) (a b : Word) (v : Byte) (h : b ≠ a) :
    (m.write a v).read b = m.read b := by
  rw [Memory.read_write, if_neg h]

@[simp] theorem Memory.read_zero (a : Word) : Memory.zero.read a = 0#8 := rfl

theorem cellsOk_mono {lo lo' : Nat} {cells : List Host.Cell} (h : cellsOk lo cells = true)
    (hlo : lo' ≤ lo) : cellsOk lo' cells = true := by
  cases cells with
  | nil => rfl
  | cons cell rest =>
    obtain ⟨k, v⟩ := cell
    simp only [cellsOk, Bool.and_eq_true, decide_eq_true_eq] at h ⊢
    exact ⟨⟨⟨by omega, h.1.1.2⟩, h.1.2⟩, h.2⟩

theorem cellsOk_eraseCell {lo : Nat} {cells : List Host.Cell} (a : Nat)
    (h : cellsOk lo cells = true) : cellsOk lo (eraseCell cells a) = true := by
  induction cells generalizing lo with
  | nil => rfl
  | cons cell rest ih =>
    obtain ⟨k, v⟩ := cell
    simp only [cellsOk, Bool.and_eq_true, decide_eq_true_eq] at h
    have hr := ih h.2
    simp only [eraseCell] at hr ⊢
    by_cases hk : k = a
    · simp only [List.filter, hk, decide_true, Bool.not_true]
      exact cellsOk_mono (hk ▸ hr) (by omega)
    · simp only [List.filter, hk, decide_false, Bool.not_false, cellsOk, Bool.and_eq_true,
        decide_eq_true_eq]
      exact ⟨h.1, hr⟩

theorem cellsOk_insertCell {lo a : Nat} {v : Byte} {cells : List Host.Cell} (hlo : lo ≤ a)
    (ha : a < 65536) (hv : v ≠ unlistedByte) (h : cellsOk lo cells = true) :
    cellsOk lo (insertCell cells a v) = true := by
  induction cells generalizing lo with
  | nil => simp [insertCell, cellsOk, hlo, ha, hv]
  | cons cell rest ih =>
    obtain ⟨k, u⟩ := cell
    simp only [cellsOk, Bool.and_eq_true, decide_eq_true_eq] at h
    simp only [insertCell]
    split
    · simp only [cellsOk, Bool.and_eq_true, decide_eq_true_eq]
      refine ⟨⟨⟨hlo, ha⟩, by simp [hv]⟩, ⟨⟨by omega, h.1.1.2⟩, h.1.2⟩, h.2⟩
    · split
      · subst_vars
        simp only [cellsOk, Bool.and_eq_true, decide_eq_true_eq]
        exact ⟨⟨⟨hlo, ha⟩, by simp [hv]⟩, h.2⟩
      · simp only [cellsOk, Bool.and_eq_true, decide_eq_true_eq]
        exact ⟨h.1, ih (by omega) h.2⟩

theorem Memory.wf_zero : Memory.zero.wf = true := rfl

/-- A write keeps the canonical form. -/
theorem Memory.wf_write {m : Memory} (h : m.wf = true) (a : Word) (v : Byte) :
    (m.write a v).wf = true := by
  simp only [Memory.wf, Memory.write] at h ⊢
  split
  · exact cellsOk_eraseCell _ h
  · exact cellsOk_insertCell (Nat.zero_le _) a.isLt ‹_› h

/-- Loading an image keeps the canonical form. -/
theorem Memory.wf_load {m : Memory} (h : m.wf = true) (image : List (Word × Byte)) :
    (m.load image).wf = true := by
  induction image generalizing m with
  | nil => exact h
  | cons p rest ih => exact ih (Memory.wf_write h _ _)

/-- Placing bytes keeps the canonical form. -/
theorem Memory.wf_place {m : Memory} (h : m.wf = true) (a : Word) (bytes : List Byte) :
    (m.place a bytes).wf = true := by
  induction bytes generalizing m a with
  | nil => exact h
  | cons v rest ih => exact ih (Memory.wf_write h _ _) _

theorem lookupCell_below {lo k : Nat} {cells : List Host.Cell} (h : cellsOk lo cells = true)
    (hk : k < lo) : lookupCell cells k = unlistedByte := by
  induction cells generalizing lo with
  | nil => rfl
  | cons cell rest ih =>
    obtain ⟨j, u⟩ := cell
    simp only [cellsOk, Bool.and_eq_true, decide_eq_true_eq] at h
    rw [lookupCell, if_neg (by omega)]
    exact ih h.2 (by omega)

theorem cells_ext {lo : Nat} {xs ys : List Host.Cell} (hx : cellsOk lo xs = true)
    (hy : cellsOk lo ys = true) (h : ∀ k, k < 65536 → lookupCell xs k = lookupCell ys k) :
    xs = ys := by
  induction xs generalizing lo ys with
  | nil =>
    cases ys with
    | nil => rfl
    | cons cell rest =>
      obtain ⟨k, v⟩ := cell
      simp only [cellsOk, Bool.and_eq_true, decide_eq_true_eq] at hy
      have := h k hy.1.1.2
      simp [lookupCell] at this
      simp [← this] at hy
  | cons cell rest ih =>
    obtain ⟨j, u⟩ := cell
    simp only [cellsOk, Bool.and_eq_true, decide_eq_true_eq, Bool.not_eq_true',
      decide_eq_false_iff_not] at hx
    cases ys with
    | nil =>
      have := h j hx.1.1.2
      simp [lookupCell] at this
      exact absurd this hx.1.2
    | cons cell' rest' =>
      obtain ⟨k, v⟩ := cell'
      simp only [cellsOk, Bool.and_eq_true, decide_eq_true_eq, Bool.not_eq_true',
        decide_eq_false_iff_not] at hy
      have hjk : j = k := by
        rcases Nat.lt_trichotomy j k with hlt | heq | hgt
        · have := h j hx.1.1.2
          simp only [lookupCell, if_true] at this
          rw [if_neg (by omega), lookupCell_below hy.2 (by omega)] at this
          exact absurd this hx.1.2
        · exact heq
        · have := h k hy.1.1.2
          simp only [lookupCell, if_true] at this
          rw [if_neg (by omega), lookupCell_below hx.2 (by omega)] at this
          exact absurd this.symm hy.1.2
      subst hjk
      have huv : u = v := by simpa [lookupCell] using h j hx.1.1.2
      subst huv
      congr 1
      refine ih hx.2 hy.2 fun k hk => ?_
      by_cases hkj : k = j
      · subst hkj
        rw [lookupCell_below hx.2 (by omega), lookupCell_below hy.2 (by omega)]
      · have := h k hk
        simpa [lookupCell, Ne.symm hkj] using this

/-- Canonical memories that read alike are the same data. -/
theorem Memory.ext_read {m m' : Memory} (h : m.wf = true) (h' : m'.wf = true)
    (hr : ∀ a, m.read a = m'.read a) : m = m' := by
  obtain ⟨xs⟩ := m
  obtain ⟨ys⟩ := m'
  congr 1
  refine cells_ext h h' fun k hk => ?_
  have := hr (BitVec.ofNat 16 k)
  simp only [Memory.read, BitVec.toNat_ofNat] at this
  rwa [Nat.mod_eq_of_lt (by omega)] at this

/-- An image leaves every byte it does not name. -/
theorem Memory.read_load_other (m : Memory) (image : List (Word × Byte)) (a : Word)
    (h : ∀ p ∈ image, p.1 ≠ a) : (m.load image).read a = m.read a := by
  induction image generalizing m with
  | nil => rfl
  | cons p rest ih =>
    obtain ⟨b, v⟩ := p
    simp only [Memory.load]
    rw [ih _ (fun q hq => h q (by simp [hq])),
      Memory.read_write_other _ _ _ _ (Ne.symm (h (b, v) (by simp)))]

/-- An image in two parts is loaded part by part. -/
theorem Memory.load_append (m : Memory) (xs ys : List (Word × Byte)) :
    m.load (xs ++ ys) = (m.load xs).load ys := by
  induction xs generalizing m with
  | nil => rfl
  | cons p rest ih => exact ih _

/-- Placed bytes leave every other address. -/
theorem Memory.read_place_other (m : Memory) (bytes : List Byte) (start a : Word)
    (h : ∀ k, k < bytes.length → a ≠ start + BitVec.ofNat 16 k) :
    (m.place start bytes).read a = m.read a := by
  induction bytes generalizing m start with
  | nil => rfl
  | cons v rest ih =>
    simp only [Memory.place]
    rw [ih, Memory.read_write_other _ _ _ _ (by simpa using h 0 (by simp))]
    intro k hk
    have hne := h (k + 1) (by simp; omega)
    rw [BitVec.add_assoc]
    convert hne using 2
    apply BitVec.eq_of_toNat_eq
    simp
    omega

/-- The k-th placed byte is read back unless a later byte wraps around onto it. -/
theorem Memory.read_place_at (m : Memory) (bytes : List Byte) (start : Word) (k : Nat) (v : Byte)
    (h : bytes[k]? = some v) (hl : bytes.length - k ≤ 65536) :
    (m.place start bytes).read (start + BitVec.ofNat 16 k) = v := by
  induction bytes generalizing m start k with
  | nil => simp at h
  | cons u rest ih =>
    simp only [Memory.place]
    cases k with
    | zero =>
      simp at h
      subst h
      rw [Memory.read_place_other]
      · simp
      · intro k hk e
        have he := congrArg BitVec.toNat e
        simp at he hl
        omega
    | succ k =>
      rw [← ih (m.write start u) (start + 1#16) k (by simpa using h) (by simp at hl; omega)]
      congr 1
      rw [BitVec.add_assoc]
      congr 1
      apply BitVec.eq_of_toNat_eq
      simp
      omega

end Sys2Proof.Machine
end

