-- ==== Sys2Proof/Laws/State.lean ====
section
/-! SUPPORT. What each update of the state does to each field: one lemma per field per update. -/

namespace Sys2Proof.Machine

@[simp] theorem State.setA_a (s : State) (v : Byte) : (s.setA v).a = v := rfl
@[simp] theorem State.setA_x (s : State) (v : Byte) : (s.setA v).x = s.x := rfl
@[simp] theorem State.setA_y (s : State) (v : Byte) : (s.setA v).y = s.y := rfl
@[simp] theorem State.setA_sp (s : State) (v : Byte) : (s.setA v).sp = s.sp := rfl
@[simp] theorem State.setA_pc (s : State) (v : Byte) : (s.setA v).pc = s.pc := rfl
@[simp] theorem State.setA_flags (s : State) (v : Byte) : (s.setA v).flags = s.flags := rfl
@[simp] theorem State.setA_mem (s : State) (v : Byte) : (s.setA v).mem = s.mem := rfl
@[simp] theorem State.setA_cycles (s : State) (v : Byte) : (s.setA v).cycles = s.cycles := rfl
@[simp] theorem State.setA_irqLine (s : State) (v : Byte) : (s.setA v).irqLine = s.irqLine := rfl
@[simp] theorem State.setA_nmiPending (s : State) (v : Byte) :
    (s.setA v).nmiPending = s.nmiPending := rfl

@[simp] theorem State.setX_a (s : State) (v : Byte) : (s.setX v).a = s.a := rfl
@[simp] theorem State.setX_x (s : State) (v : Byte) : (s.setX v).x = v := rfl
@[simp] theorem State.setX_y (s : State) (v : Byte) : (s.setX v).y = s.y := rfl
@[simp] theorem State.setX_sp (s : State) (v : Byte) : (s.setX v).sp = s.sp := rfl
@[simp] theorem State.setX_pc (s : State) (v : Byte) : (s.setX v).pc = s.pc := rfl
@[simp] theorem State.setX_flags (s : State) (v : Byte) : (s.setX v).flags = s.flags := rfl
@[simp] theorem State.setX_mem (s : State) (v : Byte) : (s.setX v).mem = s.mem := rfl
@[simp] theorem State.setX_cycles (s : State) (v : Byte) : (s.setX v).cycles = s.cycles := rfl
@[simp] theorem State.setX_irqLine (s : State) (v : Byte) : (s.setX v).irqLine = s.irqLine := rfl
@[simp] theorem State.setX_nmiPending (s : State) (v : Byte) :
    (s.setX v).nmiPending = s.nmiPending := rfl

@[simp] theorem State.setY_a (s : State) (v : Byte) : (s.setY v).a = s.a := rfl
@[simp] theorem State.setY_x (s : State) (v : Byte) : (s.setY v).x = s.x := rfl
@[simp] theorem State.setY_y (s : State) (v : Byte) : (s.setY v).y = v := rfl
@[simp] theorem State.setY_sp (s : State) (v : Byte) : (s.setY v).sp = s.sp := rfl
@[simp] theorem State.setY_pc (s : State) (v : Byte) : (s.setY v).pc = s.pc := rfl
@[simp] theorem State.setY_flags (s : State) (v : Byte) : (s.setY v).flags = s.flags := rfl
@[simp] theorem State.setY_mem (s : State) (v : Byte) : (s.setY v).mem = s.mem := rfl
@[simp] theorem State.setY_cycles (s : State) (v : Byte) : (s.setY v).cycles = s.cycles := rfl
@[simp] theorem State.setY_irqLine (s : State) (v : Byte) : (s.setY v).irqLine = s.irqLine := rfl
@[simp] theorem State.setY_nmiPending (s : State) (v : Byte) :
    (s.setY v).nmiPending = s.nmiPending := rfl

@[simp] theorem State.setSp_a (s : State) (v : Byte) : (s.setSp v).a = s.a := rfl
@[simp] theorem State.setSp_x (s : State) (v : Byte) : (s.setSp v).x = s.x := rfl
@[simp] theorem State.setSp_y (s : State) (v : Byte) : (s.setSp v).y = s.y := rfl
@[simp] theorem State.setSp_sp (s : State) (v : Byte) : (s.setSp v).sp = v := rfl
@[simp] theorem State.setSp_pc (s : State) (v : Byte) : (s.setSp v).pc = s.pc := rfl
@[simp] theorem State.setSp_flags (s : State) (v : Byte) : (s.setSp v).flags = s.flags := rfl
@[simp] theorem State.setSp_mem (s : State) (v : Byte) : (s.setSp v).mem = s.mem := rfl
@[simp] theorem State.setSp_cycles (s : State) (v : Byte) : (s.setSp v).cycles = s.cycles := rfl
@[simp] theorem State.setSp_irqLine (s : State) (v : Byte) : (s.setSp v).irqLine = s.irqLine := rfl
@[simp] theorem State.setSp_nmiPending (s : State) (v : Byte) :
    (s.setSp v).nmiPending = s.nmiPending := rfl

@[simp] theorem State.setPc_a (s : State) (w : Word) : (s.setPc w).a = s.a := rfl
@[simp] theorem State.setPc_x (s : State) (w : Word) : (s.setPc w).x = s.x := rfl
@[simp] theorem State.setPc_y (s : State) (w : Word) : (s.setPc w).y = s.y := rfl
@[simp] theorem State.setPc_sp (s : State) (w : Word) : (s.setPc w).sp = s.sp := rfl
@[simp] theorem State.setPc_pc (s : State) (w : Word) : (s.setPc w).pc = w := rfl
@[simp] theorem State.setPc_flags (s : State) (w : Word) : (s.setPc w).flags = s.flags := rfl
@[simp] theorem State.setPc_mem (s : State) (w : Word) : (s.setPc w).mem = s.mem := rfl
@[simp] theorem State.setPc_cycles (s : State) (w : Word) : (s.setPc w).cycles = s.cycles := rfl
@[simp] theorem State.setPc_irqLine (s : State) (w : Word) : (s.setPc w).irqLine = s.irqLine := rfl
@[simp] theorem State.setPc_nmiPending (s : State) (w : Word) :
    (s.setPc w).nmiPending = s.nmiPending := rfl

@[simp] theorem State.setFlags_a (s : State) (f : Flags) : (s.setFlags f).a = s.a := rfl
@[simp] theorem State.setFlags_x (s : State) (f : Flags) : (s.setFlags f).x = s.x := rfl
@[simp] theorem State.setFlags_y (s : State) (f : Flags) : (s.setFlags f).y = s.y := rfl
@[simp] theorem State.setFlags_sp (s : State) (f : Flags) : (s.setFlags f).sp = s.sp := rfl
@[simp] theorem State.setFlags_pc (s : State) (f : Flags) : (s.setFlags f).pc = s.pc := rfl
@[simp] theorem State.setFlags_flags (s : State) (f : Flags) : (s.setFlags f).flags = f := rfl
@[simp] theorem State.setFlags_mem (s : State) (f : Flags) : (s.setFlags f).mem = s.mem := rfl
@[simp] theorem State.setFlags_cycles (s : State) (f : Flags) :
    (s.setFlags f).cycles = s.cycles := rfl
@[simp] theorem State.setFlags_irqLine (s : State) (f : Flags) :
    (s.setFlags f).irqLine = s.irqLine := rfl
@[simp] theorem State.setFlags_nmiPending (s : State) (f : Flags) :
    (s.setFlags f).nmiPending = s.nmiPending := rfl

@[simp] theorem State.write_a (s : State) (a : Word) (v : Byte) : (s.write a v).a = s.a := rfl
@[simp] theorem State.write_x (s : State) (a : Word) (v : Byte) : (s.write a v).x = s.x := rfl
@[simp] theorem State.write_y (s : State) (a : Word) (v : Byte) : (s.write a v).y = s.y := rfl
@[simp] theorem State.write_sp (s : State) (a : Word) (v : Byte) : (s.write a v).sp = s.sp := rfl
@[simp] theorem State.write_pc (s : State) (a : Word) (v : Byte) : (s.write a v).pc = s.pc := rfl
@[simp] theorem State.write_flags (s : State) (a : Word) (v : Byte) :
    (s.write a v).flags = s.flags := rfl
@[simp] theorem State.write_mem (s : State) (a : Word) (v : Byte) :
    (s.write a v).mem = s.mem.write a v := rfl
@[simp] theorem State.write_cycles (s : State) (a : Word) (v : Byte) :
    (s.write a v).cycles = s.cycles := rfl
@[simp] theorem State.write_irqLine (s : State) (a : Word) (v : Byte) :
    (s.write a v).irqLine = s.irqLine := rfl
@[simp] theorem State.write_nmiPending (s : State) (a : Word) (v : Byte) :
    (s.write a v).nmiPending = s.nmiPending := rfl

@[simp] theorem State.tick_a (s : State) (k : Nat) : (s.tick k).a = s.a := rfl
@[simp] theorem State.tick_x (s : State) (k : Nat) : (s.tick k).x = s.x := rfl
@[simp] theorem State.tick_y (s : State) (k : Nat) : (s.tick k).y = s.y := rfl
@[simp] theorem State.tick_sp (s : State) (k : Nat) : (s.tick k).sp = s.sp := rfl
@[simp] theorem State.tick_pc (s : State) (k : Nat) : (s.tick k).pc = s.pc := rfl
@[simp] theorem State.tick_flags (s : State) (k : Nat) : (s.tick k).flags = s.flags := rfl
@[simp] theorem State.tick_mem (s : State) (k : Nat) : (s.tick k).mem = s.mem := rfl
@[simp] theorem State.tick_cycles (s : State) (k : Nat) : (s.tick k).cycles = s.cycles + k := rfl
@[simp] theorem State.tick_irqLine (s : State) (k : Nat) : (s.tick k).irqLine = s.irqLine := rfl
@[simp] theorem State.tick_nmiPending (s : State) (k : Nat) :
    (s.tick k).nmiPending = s.nmiPending := rfl

@[simp] theorem State.setIrqLine_a (s : State) (b : Bool) : (s.setIrqLine b).a = s.a := rfl
@[simp] theorem State.setIrqLine_x (s : State) (b : Bool) : (s.setIrqLine b).x = s.x := rfl
@[simp] theorem State.setIrqLine_y (s : State) (b : Bool) : (s.setIrqLine b).y = s.y := rfl
@[simp] theorem State.setIrqLine_sp (s : State) (b : Bool) : (s.setIrqLine b).sp = s.sp := rfl
@[simp] theorem State.setIrqLine_pc (s : State) (b : Bool) : (s.setIrqLine b).pc = s.pc := rfl
@[simp] theorem State.setIrqLine_flags (s : State) (b : Bool) :
    (s.setIrqLine b).flags = s.flags := rfl
@[simp] theorem State.setIrqLine_mem (s : State) (b : Bool) : (s.setIrqLine b).mem = s.mem := rfl
@[simp] theorem State.setIrqLine_cycles (s : State) (b : Bool) :
    (s.setIrqLine b).cycles = s.cycles := rfl
@[simp] theorem State.setIrqLine_irqLine (s : State) (b : Bool) :
    (s.setIrqLine b).irqLine = b := rfl
@[simp] theorem State.setIrqLine_nmiPending (s : State) (b : Bool) :
    (s.setIrqLine b).nmiPending = s.nmiPending := rfl

@[simp] theorem State.setNmiPending_a (s : State) (b : Bool) : (s.setNmiPending b).a = s.a := rfl
@[simp] theorem State.setNmiPending_x (s : State) (b : Bool) : (s.setNmiPending b).x = s.x := rfl
@[simp] theorem State.setNmiPending_y (s : State) (b : Bool) : (s.setNmiPending b).y = s.y := rfl
@[simp] theorem State.setNmiPending_sp (s : State) (b : Bool) : (s.setNmiPending b).sp = s.sp := rfl
@[simp] theorem State.setNmiPending_pc (s : State) (b : Bool) : (s.setNmiPending b).pc = s.pc := rfl
@[simp] theorem State.setNmiPending_flags (s : State) (b : Bool) :
    (s.setNmiPending b).flags = s.flags := rfl
@[simp] theorem State.setNmiPending_mem (s : State) (b : Bool) :
    (s.setNmiPending b).mem = s.mem := rfl
@[simp] theorem State.setNmiPending_cycles (s : State) (b : Bool) :
    (s.setNmiPending b).cycles = s.cycles := rfl
@[simp] theorem State.setNmiPending_irqLine (s : State) (b : Bool) :
    (s.setNmiPending b).irqLine = s.irqLine := rfl
@[simp] theorem State.setNmiPending_nmiPending (s : State) (b : Bool) :
    (s.setNmiPending b).nmiPending = b := rfl

@[simp] theorem State.push_a (s : State) (v : Byte) :
    (s.push v).a = s.a := rfl
@[simp] theorem State.push_x (s : State) (v : Byte) :
    (s.push v).x = s.x := rfl
@[simp] theorem State.push_y (s : State) (v : Byte) :
    (s.push v).y = s.y := rfl
@[simp] theorem State.push_sp (s : State) (v : Byte) :
    (s.push v).sp = s.sp - 1#8 := rfl
@[simp] theorem State.push_pc (s : State) (v : Byte) :
    (s.push v).pc = s.pc := rfl
@[simp] theorem State.push_flags (s : State) (v : Byte) :
    (s.push v).flags = s.flags := rfl
@[simp] theorem State.push_mem (s : State) (v : Byte) :
    (s.push v).mem = s.mem.write (stackAddr s.sp) v := rfl
@[simp] theorem State.push_cycles (s : State) (v : Byte) :
    (s.push v).cycles = s.cycles := rfl
@[simp] theorem State.push_irqLine (s : State) (v : Byte) :
    (s.push v).irqLine = s.irqLine := rfl
@[simp] theorem State.push_nmiPending (s : State) (v : Byte) :
    (s.push v).nmiPending = s.nmiPending := rfl

@[simp] theorem State.pull_fst (s : State) : s.pull.1 = s.mem.read (stackAddr (s.sp + 1#8)) := rfl
@[simp] theorem State.pull_snd_a (s : State) : s.pull.2.a = s.a := rfl
@[simp] theorem State.pull_snd_x (s : State) : s.pull.2.x = s.x := rfl
@[simp] theorem State.pull_snd_y (s : State) : s.pull.2.y = s.y := rfl
@[simp] theorem State.pull_snd_sp (s : State) : s.pull.2.sp = s.sp + 1#8 := rfl
@[simp] theorem State.pull_snd_pc (s : State) : s.pull.2.pc = s.pc := rfl
@[simp] theorem State.pull_snd_flags (s : State) : s.pull.2.flags = s.flags := rfl
@[simp] theorem State.pull_snd_mem (s : State) : s.pull.2.mem = s.mem := rfl
@[simp] theorem State.pull_snd_cycles (s : State) : s.pull.2.cycles = s.cycles := rfl
@[simp] theorem State.pull_snd_irqLine (s : State) : s.pull.2.irqLine = s.irqLine := rfl
@[simp] theorem State.pull_snd_nmiPending (s : State) : s.pull.2.nmiPending = s.nmiPending := rfl

@[simp] theorem State.read_eq (s : State) (a : Word) : s.read a = s.mem.read a := rfl

end Sys2Proof.Machine
end

