-- ==== Sys2Proof/Laws/Ops.lean ====
section
/-! SUPPORT. What each shared operation does, said once: the stack, exception entry and return, and the
effective address. -/

namespace Sys2Proof.Machine

theorem toNat_stackAddr (sp : Byte) : (stackAddr sp).toNat = 256 + sp.toNat := by
  have h := sp.isLt
  have h256 : (0x0100#16).toNat = 256 := rfl
  simp only [stackAddr, BitVec.toNat_add, toNat_zext16, h256]
  omega

/-- Different stack pointers are different addresses. -/
@[simp] theorem stackAddr_inj (p q : Byte) : stackAddr p = stackAddr q ↔ p = q := by
  rw [← BitVec.toNat_inj, ← BitVec.toNat_inj, toNat_stackAddr, toNat_stackAddr]
  omega

/-- The stack lies in page one. -/
theorem stackAddr_ne_of_high {a : Word} (h : 512 ≤ a.toNat) (sp : Byte) : a ≠ stackAddr sp := by
  intro e
  have := toNat_stackAddr sp
  have := sp.isLt
  rw [← e] at *
  omega

theorem sub_one_sub_one (p : Byte) : p - 1#8 - 1#8 = p - 2#8 := by rw [BitVec.sub_sub]; rfl

theorem sub_two_sub_one (p : Byte) : p - 2#8 - 1#8 = p - 3#8 := by rw [BitVec.sub_sub]; rfl

theorem add_one_add_one (p : Byte) : p + 1#8 + 1#8 = p + 2#8 := by rw [BitVec.add_assoc]; rfl

theorem add_two_add_one (p : Byte) : p + 2#8 + 1#8 = p + 3#8 := by rw [BitVec.add_assoc]; rfl

theorem ne_sub_one (p : Byte) : p ≠ p - 1#8 := by bv_omega

theorem ne_sub_two (p : Byte) : p ≠ p - 2#8 := by bv_omega

theorem sub_one_ne_sub_two (p : Byte) : p - 1#8 ≠ p - 2#8 := by bv_omega

/-- A push writes one slot and lowers SP. -/
theorem push_eq (s : State) (v : Byte) :
    s.push v = { s with sp := s.sp - 1#8, mem := s.mem.write (stackAddr s.sp) v } := rfl

/-- A pushed word takes two slots, the high byte in the upper one. -/
theorem pushWord_eq (s : State) (w : Word) :
    s.pushWord w =
      { s with
        sp := s.sp - 2#8
        mem := (s.mem.write (stackAddr s.sp) (hiByte w)).write (stackAddr (s.sp - 1#8)) (loByte w) } := by
  simp only [State.pushWord, push_eq, sub_one_sub_one]

/-- A pulled word comes from two slots, the low byte from the lower one. -/
theorem pullWord_eq (s : State) :
    s.pullWord =
      (wordOf (s.mem.read (stackAddr (s.sp + 2#8))) (s.mem.read (stackAddr (s.sp + 1#8))),
        { s with sp := s.sp + 2#8 }) := by
  simp only [State.pullWord, State.pull, add_one_add_one]

/-- The memory an exception entry leaves. -/
theorem enterHandler_mem (s : State) (ret : Word) (b4 : Bool) (vector : Word) :
    (s.enterHandler ret b4 vector).mem =
      ((s.mem.write (stackAddr s.sp) (hiByte ret)).write (stackAddr (s.sp - 1#8)) (loByte ret)).write
        (stackAddr (s.sp - 2#8)) (s.flags.pack b4) := by
  simp only [State.enterHandler, pushWord_eq, push_eq]

/-- An exception entry changes SP, PC, I, memory and the counter, and nothing else. -/
theorem enterHandler_eq (s : State) (ret : Word) (b4 : Bool) (vector : Word) :
    s.enterHandler ret b4 vector =
      { s with
        sp := s.sp - 3#8
        pc := (s.enterHandler ret b4 vector).mem.read16 vector
        flags := { s.flags with i := true }
        mem := (s.enterHandler ret b4 vector).mem
        cycles := s.cycles + 7 } := by
  simp only [State.enterHandler, pushWord_eq, push_eq, sub_two_sub_one]

/-- The PC an exception entry leaves: the vector as memory then holds it. -/
theorem enterHandler_pc (s : State) (ret : Word) (b4 : Bool) (vector : Word) :
    (s.enterHandler ret b4 vector).pc = (s.enterHandler ret b4 vector).mem.read16 vector := rfl

/-! An exception entry, field by field. Stated by rewriting with the whole record, because comparing the
nested updates field by field is slow. -/

@[simp] theorem enterHandler_a (s : State) (ret : Word) (b4 : Bool) (vector : Word) :
    (s.enterHandler ret b4 vector).a = s.a := by
  rw [enterHandler_eq]

@[simp] theorem enterHandler_x (s : State) (ret : Word) (b4 : Bool) (vector : Word) :
    (s.enterHandler ret b4 vector).x = s.x := by
  rw [enterHandler_eq]

@[simp] theorem enterHandler_y (s : State) (ret : Word) (b4 : Bool) (vector : Word) :
    (s.enterHandler ret b4 vector).y = s.y := by
  rw [enterHandler_eq]

@[simp] theorem enterHandler_sp (s : State) (ret : Word) (b4 : Bool) (vector : Word) :
    (s.enterHandler ret b4 vector).sp = s.sp - 3#8 := by
  rw [enterHandler_eq]

@[simp] theorem enterHandler_flags (s : State) (ret : Word) (b4 : Bool) (vector : Word) :
    (s.enterHandler ret b4 vector).flags = { s.flags with i := true } := by
  rw [enterHandler_eq]

@[simp] theorem enterHandler_cycles (s : State) (ret : Word) (b4 : Bool) (vector : Word) :
    (s.enterHandler ret b4 vector).cycles = s.cycles + 7 := by
  rw [enterHandler_eq]

@[simp] theorem enterHandler_irqLine (s : State) (ret : Word) (b4 : Bool) (vector : Word) :
    (s.enterHandler ret b4 vector).irqLine = s.irqLine := by
  rw [enterHandler_eq]

@[simp] theorem enterHandler_nmiPending (s : State) (ret : Word) (b4 : Bool) (vector : Word) :
    (s.enterHandler ret b4 vector).nmiPending = s.nmiPending := by
  rw [enterHandler_eq]

/-- A return from an exception changes SP, PC, six flags and the counter, and nothing else. -/
theorem returnFromHandler_eq (s : State) :
    s.returnFromHandler =
      { s with
        sp := s.sp + 3#8
        pc := wordOf (s.mem.read (stackAddr (s.sp + 3#8))) (s.mem.read (stackAddr (s.sp + 2#8)))
        flags := s.flags.unpack (s.mem.read (stackAddr (s.sp + 1#8)))
        cycles := s.cycles + 6 } := by
  have h : s.sp + 1#8 + 2#8 = s.sp + 3#8 := by rw [BitVec.add_assoc]; rfl
  simp only [State.returnFromHandler, State.pull, pullWord_eq, add_one_add_one, h]

/-! A return from an exception, field by field. -/

@[simp] theorem returnFromHandler_a (s : State) : s.returnFromHandler.a = s.a := by
  rw [returnFromHandler_eq]

@[simp] theorem returnFromHandler_x (s : State) : s.returnFromHandler.x = s.x := by
  rw [returnFromHandler_eq]

@[simp] theorem returnFromHandler_y (s : State) : s.returnFromHandler.y = s.y := by
  rw [returnFromHandler_eq]

@[simp] theorem returnFromHandler_mem (s : State) : s.returnFromHandler.mem = s.mem := by
  rw [returnFromHandler_eq]

@[simp] theorem returnFromHandler_irqLine (s : State) : s.returnFromHandler.irqLine = s.irqLine := by
  rw [returnFromHandler_eq]

@[simp] theorem returnFromHandler_nmiPending (s : State) : s.returnFromHandler.nmiPending = s.nmiPending := by
  rw [returnFromHandler_eq]

/-- The bits of a packed status byte (R27, R28). -/
theorem bit_pack (f : Flags) (b4 : Bool) :
    bit (f.pack b4) 0 = f.c ∧ bit (f.pack b4) 1 = f.z ∧ bit (f.pack b4) 2 = f.i ∧
    bit (f.pack b4) 3 = f.d ∧ bit (f.pack b4) 4 = b4 ∧ bit (f.pack b4) 5 = true ∧
    bit (f.pack b4) 6 = f.v ∧ bit (f.pack b4) 7 = f.n := by
  obtain ⟨c, z, i, d, b, v, n⟩ := f
  revert c z i d v n b4
  simp only [Flags.pack]
  decide

/-- Unpacking a packed status gives the flags back, with B as it was (R28, R29). -/
@[simp] theorem unpack_pack (f g : Flags) (b4 : Bool) : g.unpack (f.pack b4) = { f with b := g.b } := by
  obtain ⟨h0, h1, h2, h3, -, -, h6, h7⟩ := bit_pack f b4
  simp only [Flags.unpack, h0, h1, h2, h3, h6, h7]

end Sys2Proof.Machine
end

