-- ==== Sys2Proof/Laws/Meanings.lean ====
section
/-! SUPPORT. What each operation shared by the instructions of a family does, said once as the record it
gives, and the bounds of the cycle totals. -/

namespace Sys2Proof.Machine

theorem loadA_eq (s : State) (o : Operand) :
    s.loadA o =
      { s with
        a := o.value s, flags := s.flags.setZN (o.value s), cycles := s.cycles + o.readCycles s } := rfl

theorem loadX_eq (s : State) (o : Operand) :
    s.loadX o =
      { s with
        x := o.value s, flags := s.flags.setZN (o.value s), cycles := s.cycles + o.readCycles s } := rfl

theorem loadY_eq (s : State) (o : Operand) :
    s.loadY o =
      { s with
        y := o.value s, flags := s.flags.setZN (o.value s), cycles := s.cycles + o.readCycles s } := rfl

theorem store_eq (s : State) (v : Byte) (m : MemMode) :
    s.store v m =
      { s with mem := s.mem.write (m.ea s) v, cycles := s.cycles + m.storeCycles } := rfl

theorem adc_eq (s : State) (o : Operand) :
    s.adc o =
      { s with
        a := (adcResult s.flags s.a (o.value s)).value
        flags := s.flags.setAlu (adcResult s.flags s.a (o.value s))
        cycles := s.cycles + o.readCycles s } := rfl

theorem sbc_eq (s : State) (o : Operand) :
    s.sbc o =
      { s with
        a := (sbcResult s.flags s.a (o.value s)).value
        flags := s.flags.setAlu (sbcResult s.flags s.a (o.value s))
        cycles := s.cycles + o.readCycles s } := rfl

theorem logic_eq (s : State) (f : Byte → Byte → Byte) (o : Operand) :
    s.logic f o =
      { s with
        a := f s.a (o.value s), flags := s.flags.setZN (f s.a (o.value s))
        cycles := s.cycles + o.readCycles s } := rfl

theorem cmp_eq (s : State) (reg : Byte) (o : Operand) :
    s.cmp reg o =
      { s with
        flags := s.flags.compare reg (o.value s), cycles := s.cycles + o.readCycles s } := rfl

theorem bitTest_eq (s : State) (o : Operand) :
    s.bitTest o =
      { s with
        flags := s.flags.bitTest s.a (o.value s), cycles := s.cycles + o.readCycles s } := rfl

theorem rmwAcc_eq (s : State) (f : RmwFn) :
    s.rmwAcc f =
      { s with
        a := (f s.a s.flags.c).value, flags := s.flags.setShift (f s.a s.flags.c)
        cycles := s.cycles + 2 } := rfl

theorem rmwMem_eq (s : State) (f : RmwFn) (m : MemMode) :
    s.rmwMem f m =
      { s with
        mem := s.mem.write (m.ea s) (f (s.mem.read (m.ea s)) s.flags.c).value
        flags := s.flags.setShift (f (s.mem.read (m.ea s)) s.flags.c)
        cycles := s.cycles + m.rmwCycles } := rfl

theorem branch_eq (s : State) (taken : Bool) (d : Byte) :
    s.branch taken d =
      { s with
        pc := if taken then branchTarget s.pc d else s.pc
        cycles := s.cycles + branchCycles taken s.pc (branchTarget s.pc d) } := rfl

/-- A read-type instruction takes at least 2 cycles. -/
theorem two_le_readCycles (o : Operand) (s : State) : 2 ≤ o.readCycles s := by
  cases o with
  | imm m => exact Nat.le_refl 2
  | mem m => cases m <;> simp only [Operand.readCycles, MemMode.readCycles] <;> omega

/-- A store takes at least 3 cycles. -/
theorem three_le_storeCycles (m : MemMode) : 3 ≤ m.storeCycles := by
  cases m <;> simp [MemMode.storeCycles]

/-- A branch takes at least 2 cycles. -/
theorem two_le_branchCycles (taken : Bool) (next target : Word) :
    2 ≤ branchCycles taken next target := by
  simp only [branchCycles]
  split
  · split <;> omega
  · exact Nat.le_refl 2

/-- The sign extension of a displacement, as an integer modulo 65536. -/
theorem toInt_sext16 (d : Byte) : (sext16 d).toInt = d.toInt :=
  BitVec.toInt_signExtend_of_le (by decide)

/-- A branch target is the next address plus the signed displacement modulo 65536 (R120). -/
theorem toNat_branchTarget (next : Word) (d : Byte) :
    ((branchTarget next d).toNat : Int) = ((next.toNat : Int) + d.toInt) % 65536 := by
  have h := toInt_sext16 d
  have hl := (sext16 d).isLt
  have hd := d.isLt
  rw [BitVec.toInt_eq_toNat_cond] at h
  simp only [branchTarget, BitVec.toNat_add, Nat.reducePow] at h ⊢
  split at h <;> omega

/-- The effective address is its base plus its index modulo 65536. -/
theorem toNat_ea (m : MemMode) (s : State) :
    (m.ea s).toNat = ((m.base s).toNat + (m.index s).toNat) % 65536 := by
  simp only [MemMode.ea, BitVec.toNat_add, toNat_zext16, Nat.reducePow]

/-- `px` is set exactly when the indexed address left its base's page. -/
theorem px_iff (m : MemMode) (s : State) :
    m.px s = true ↔ (m.ea s).toNat / 256 ≠ (m.base s).toNat / 256 := by
  simp only [MemMode.px, Bool.not_eq_true', decide_eq_false_iff_not, page_eq_iff, ne_eq]

end Sys2Proof.Machine
end

