-- ==== Sys2Proof/Laws/Cycles.lean ====
section
/-! SUPPORT. The opcode table's cycle rows against the totals the operations count: how to look a row up by
a literal opcode, and the total of each shape of row. -/

namespace Sys2Proof.Machine

/-- With the opcode given as a literal, the table's row is a closed term that `decide` evaluates. -/
theorem tableCycles_of_opcode {i : Instr} {op : Byte} (h : (encode i).headD 0 = op) :
    tableCycles i = lookupCycles op (cycleRows.getD (op.toNat / 16) []) := by
  subst h
  rfl

/-- The total of a row without page penalty whose instruction is no branch. -/
theorem totalCycles_plain {i : Instr} {s : State} {k : Nat} (h : tableCycles i = (k, false))
    (hb : branchExtra i s = 0) : totalCycles i s = k := by
  simp [totalCycles, h, hb]

/-- The total of a row with page penalty. -/
theorem totalCycles_penalty {i : Instr} {s : State} {k px : Nat} (h : tableCycles i = (k, true))
    (hb : branchExtra i s = 0) (hp : pageCross i s = px) : totalCycles i s = k + px := by
  simp [totalCycles, h, hb, hp]

/-- The total of a branch. -/
theorem totalCycles_branch {i : Instr} {s : State} {taken : Bool} {d : Byte}
    (h : tableCycles i = (2, false)) (hb : branchCondition i.mnemonic s.flags = some taken)
    (hd : BitVec.ofNat 8 i.raw.operand = d) :
    totalCycles i s = branchCycles taken s.pc (branchTarget s.pc d) := by
  simp only [totalCycles, h, branchExtra, hb, hd, branchCycles]
  cases taken
  · rfl
  · by_cases hq : page (branchTarget s.pc d) = page s.pc <;> simp [hq]

end Sys2Proof.Machine
end

