-- ==== Sys2Proof/Laws/Decode.lean ====
section
/-! SUPPORT. What the opcode map gives: every form it holds encodes to its own opcode byte followed by its
operand bytes, and has that length. -/

namespace Sys2Proof

/-- A row's form builds instructions that encode to the row's opcode and the operand given. -/
def FormEncodes (op : Byte) : Form → Prop
  | .bare i => encode i = [op] ∧ i.length = 1
  | .byte f => ∀ b1, encode (f b1) = [op, b1] ∧ (f b1).length = 2
  | .word f => ∀ w, encode (f w) = [op, loByte w, hiByte w] ∧ (f w).length = 3

theorem opcodeRows_encode : ∀ p ∈ opcodeRows, FormEncodes p.1 p.2 := by
  have h : List.Forall (fun p : Byte × Form => FormEncodes p.1 p.2) opcodeRows := by
    repeat' first | exact trivial | apply And.intro
    all_goals first
      | rfl
      | exact fun _ => ⟨rfl, rfl⟩
  exact List.forall_iff_forall_mem.mp h

theorem mem_of_lookupForm {op : Byte} {rows : List (Byte × Form)} {f : Form}
    (h : lookupForm op rows = some f) : (op, f) ∈ rows := by
  induction rows with
  | nil => simp [lookupForm] at h
  | cons p rest ih =>
    obtain ⟨k, g⟩ := p
    simp only [lookupForm] at h
    split at h
    · cases h; subst_vars; exact List.mem_cons_self
    · exact List.mem_cons_of_mem _ (ih h)

/-- The form the map gives for an opcode encodes back to that opcode. -/
theorem opcodeMap_encodes {op : Byte} {f : Form} (h : opcodeMap op = some f) : FormEncodes op f :=
  opcodeRows_encode _ (mem_of_lookupForm h)

end Sys2Proof
end

