-- ==== Sys2Proof/Laws/PerInstr.lean ====
section
/-! SUPPORT. The family EncodingShape, one lemma per instruction: the instruction is an entry of the opcode
map with its operand in range (R84, R87), and its bytes are as many as its mode gives (R81). -/

namespace Sys2Proof.Laws

theorem wellFormed_bare {m : Mnemonic} {k : AddrMode} (h : m.modes.contains k = true)
    (hk : k.operandBytes = 0) : (RawInstr.mk m k 0).wellFormed = true := by
  simp [RawInstr.wellFormed, RawInstr.modeOk, RawInstr.operandOk, hk]
  simpa using h

theorem wellFormed_byte {m : Mnemonic} {k : AddrMode} (h : m.modes.contains k = true)
    (hk : k.operandBytes = 1) (v : Byte) : (RawInstr.mk m k v.toNat).wellFormed = true := by
  simp [RawInstr.wellFormed, RawInstr.modeOk, RawInstr.operandOk, hk, v.isLt]
  simpa using h

theorem wellFormed_word {m : Mnemonic} {k : AddrMode} (h : m.modes.contains k = true)
    (hk : k.operandBytes = 2) (w : Word) : (RawInstr.mk m k w.toNat).wellFormed = true := by
  simp [RawInstr.wellFormed, RawInstr.modeOk, RawInstr.operandOk, hk, w.isLt]
  simpa using h

/-- The instruction is well formed and its encoding has the length of its mode. -/
def EncodingShape.Statement (i : Instr) : Prop :=
  i.wellFormed = true ∧ (encode i).length = i.length

theorem EncodingShape.ldaImm (m : Byte) : EncodingShape.Statement (.ldaImm m) :=
  ⟨wellFormed_byte rfl rfl m, rfl⟩
theorem EncodingShape.ldaZp (b : Byte) : EncodingShape.Statement (.ldaZp b) :=
  ⟨wellFormed_byte rfl rfl b, rfl⟩
theorem EncodingShape.ldaZpX (b : Byte) : EncodingShape.Statement (.ldaZpX b) :=
  ⟨wellFormed_byte rfl rfl b, rfl⟩
theorem EncodingShape.ldaAbs (w : Word) : EncodingShape.Statement (.ldaAbs w) :=
  ⟨wellFormed_word rfl rfl w, rfl⟩
theorem EncodingShape.ldaAbsX (w : Word) : EncodingShape.Statement (.ldaAbsX w) :=
  ⟨wellFormed_word rfl rfl w, rfl⟩
theorem EncodingShape.ldaAbsY (w : Word) : EncodingShape.Statement (.ldaAbsY w) :=
  ⟨wellFormed_word rfl rfl w, rfl⟩
theorem EncodingShape.ldaIndX (p : Byte) : EncodingShape.Statement (.ldaIndX p) :=
  ⟨wellFormed_byte rfl rfl p, rfl⟩
theorem EncodingShape.ldaIndY (p : Byte) : EncodingShape.Statement (.ldaIndY p) :=
  ⟨wellFormed_byte rfl rfl p, rfl⟩
theorem EncodingShape.ldxImm (m : Byte) : EncodingShape.Statement (.ldxImm m) :=
  ⟨wellFormed_byte rfl rfl m, rfl⟩
theorem EncodingShape.ldxZp (b : Byte) : EncodingShape.Statement (.ldxZp b) :=
  ⟨wellFormed_byte rfl rfl b, rfl⟩
theorem EncodingShape.ldxZpY (b : Byte) : EncodingShape.Statement (.ldxZpY b) :=
  ⟨wellFormed_byte rfl rfl b, rfl⟩
theorem EncodingShape.ldxAbs (w : Word) : EncodingShape.Statement (.ldxAbs w) :=
  ⟨wellFormed_word rfl rfl w, rfl⟩
theorem EncodingShape.ldxAbsY (w : Word) : EncodingShape.Statement (.ldxAbsY w) :=
  ⟨wellFormed_word rfl rfl w, rfl⟩
theorem EncodingShape.ldyImm (m : Byte) : EncodingShape.Statement (.ldyImm m) :=
  ⟨wellFormed_byte rfl rfl m, rfl⟩
theorem EncodingShape.ldyZp (b : Byte) : EncodingShape.Statement (.ldyZp b) :=
  ⟨wellFormed_byte rfl rfl b, rfl⟩
theorem EncodingShape.ldyZpX (b : Byte) : EncodingShape.Statement (.ldyZpX b) :=
  ⟨wellFormed_byte rfl rfl b, rfl⟩
theorem EncodingShape.ldyAbs (w : Word) : EncodingShape.Statement (.ldyAbs w) :=
  ⟨wellFormed_word rfl rfl w, rfl⟩
theorem EncodingShape.ldyAbsX (w : Word) : EncodingShape.Statement (.ldyAbsX w) :=
  ⟨wellFormed_word rfl rfl w, rfl⟩
theorem EncodingShape.staZp (b : Byte) : EncodingShape.Statement (.staZp b) :=
  ⟨wellFormed_byte rfl rfl b, rfl⟩
theorem EncodingShape.staZpX (b : Byte) : EncodingShape.Statement (.staZpX b) :=
  ⟨wellFormed_byte rfl rfl b, rfl⟩
theorem EncodingShape.staAbs (w : Word) : EncodingShape.Statement (.staAbs w) :=
  ⟨wellFormed_word rfl rfl w, rfl⟩
theorem EncodingShape.staAbsX (w : Word) : EncodingShape.Statement (.staAbsX w) :=
  ⟨wellFormed_word rfl rfl w, rfl⟩
theorem EncodingShape.staAbsY (w : Word) : EncodingShape.Statement (.staAbsY w) :=
  ⟨wellFormed_word rfl rfl w, rfl⟩
theorem EncodingShape.staIndX (p : Byte) : EncodingShape.Statement (.staIndX p) :=
  ⟨wellFormed_byte rfl rfl p, rfl⟩
theorem EncodingShape.staIndY (p : Byte) : EncodingShape.Statement (.staIndY p) :=
  ⟨wellFormed_byte rfl rfl p, rfl⟩
theorem EncodingShape.stxZp (b : Byte) : EncodingShape.Statement (.stxZp b) :=
  ⟨wellFormed_byte rfl rfl b, rfl⟩
theorem EncodingShape.stxZpY (b : Byte) : EncodingShape.Statement (.stxZpY b) :=
  ⟨wellFormed_byte rfl rfl b, rfl⟩
theorem EncodingShape.stxAbs (w : Word) : EncodingShape.Statement (.stxAbs w) :=
  ⟨wellFormed_word rfl rfl w, rfl⟩
theorem EncodingShape.styZp (b : Byte) : EncodingShape.Statement (.styZp b) :=
  ⟨wellFormed_byte rfl rfl b, rfl⟩
theorem EncodingShape.styZpX (b : Byte) : EncodingShape.Statement (.styZpX b) :=
  ⟨wellFormed_byte rfl rfl b, rfl⟩
theorem EncodingShape.styAbs (w : Word) : EncodingShape.Statement (.styAbs w) :=
  ⟨wellFormed_word rfl rfl w, rfl⟩
theorem EncodingShape.tax : EncodingShape.Statement .tax :=
  ⟨wellFormed_bare rfl rfl, rfl⟩
theorem EncodingShape.tay : EncodingShape.Statement .tay :=
  ⟨wellFormed_bare rfl rfl, rfl⟩
theorem EncodingShape.tsx : EncodingShape.Statement .tsx :=
  ⟨wellFormed_bare rfl rfl, rfl⟩
theorem EncodingShape.txa : EncodingShape.Statement .txa :=
  ⟨wellFormed_bare rfl rfl, rfl⟩
theorem EncodingShape.txs : EncodingShape.Statement .txs :=
  ⟨wellFormed_bare rfl rfl, rfl⟩
theorem EncodingShape.tya : EncodingShape.Statement .tya :=
  ⟨wellFormed_bare rfl rfl, rfl⟩
theorem EncodingShape.adcImm (m : Byte) : EncodingShape.Statement (.adcImm m) :=
  ⟨wellFormed_byte rfl rfl m, rfl⟩
theorem EncodingShape.adcZp (b : Byte) : EncodingShape.Statement (.adcZp b) :=
  ⟨wellFormed_byte rfl rfl b, rfl⟩
theorem EncodingShape.adcZpX (b : Byte) : EncodingShape.Statement (.adcZpX b) :=
  ⟨wellFormed_byte rfl rfl b, rfl⟩
theorem EncodingShape.adcAbs (w : Word) : EncodingShape.Statement (.adcAbs w) :=
  ⟨wellFormed_word rfl rfl w, rfl⟩
theorem EncodingShape.adcAbsX (w : Word) : EncodingShape.Statement (.adcAbsX w) :=
  ⟨wellFormed_word rfl rfl w, rfl⟩
theorem EncodingShape.adcAbsY (w : Word) : EncodingShape.Statement (.adcAbsY w) :=
  ⟨wellFormed_word rfl rfl w, rfl⟩
theorem EncodingShape.adcIndX (p : Byte) : EncodingShape.Statement (.adcIndX p) :=
  ⟨wellFormed_byte rfl rfl p, rfl⟩
theorem EncodingShape.adcIndY (p : Byte) : EncodingShape.Statement (.adcIndY p) :=
  ⟨wellFormed_byte rfl rfl p, rfl⟩
theorem EncodingShape.sbcImm (m : Byte) : EncodingShape.Statement (.sbcImm m) :=
  ⟨wellFormed_byte rfl rfl m, rfl⟩
theorem EncodingShape.sbcZp (b : Byte) : EncodingShape.Statement (.sbcZp b) :=
  ⟨wellFormed_byte rfl rfl b, rfl⟩
theorem EncodingShape.sbcZpX (b : Byte) : EncodingShape.Statement (.sbcZpX b) :=
  ⟨wellFormed_byte rfl rfl b, rfl⟩
theorem EncodingShape.sbcAbs (w : Word) : EncodingShape.Statement (.sbcAbs w) :=
  ⟨wellFormed_word rfl rfl w, rfl⟩
theorem EncodingShape.sbcAbsX (w : Word) : EncodingShape.Statement (.sbcAbsX w) :=
  ⟨wellFormed_word rfl rfl w, rfl⟩
theorem EncodingShape.sbcAbsY (w : Word) : EncodingShape.Statement (.sbcAbsY w) :=
  ⟨wellFormed_word rfl rfl w, rfl⟩
theorem EncodingShape.sbcIndX (p : Byte) : EncodingShape.Statement (.sbcIndX p) :=
  ⟨wellFormed_byte rfl rfl p, rfl⟩
theorem EncodingShape.sbcIndY (p : Byte) : EncodingShape.Statement (.sbcIndY p) :=
  ⟨wellFormed_byte rfl rfl p, rfl⟩
theorem EncodingShape.andImm (m : Byte) : EncodingShape.Statement (.andImm m) :=
  ⟨wellFormed_byte rfl rfl m, rfl⟩
theorem EncodingShape.andZp (b : Byte) : EncodingShape.Statement (.andZp b) :=
  ⟨wellFormed_byte rfl rfl b, rfl⟩
theorem EncodingShape.andZpX (b : Byte) : EncodingShape.Statement (.andZpX b) :=
  ⟨wellFormed_byte rfl rfl b, rfl⟩
theorem EncodingShape.andAbs (w : Word) : EncodingShape.Statement (.andAbs w) :=
  ⟨wellFormed_word rfl rfl w, rfl⟩
theorem EncodingShape.andAbsX (w : Word) : EncodingShape.Statement (.andAbsX w) :=
  ⟨wellFormed_word rfl rfl w, rfl⟩
theorem EncodingShape.andAbsY (w : Word) : EncodingShape.Statement (.andAbsY w) :=
  ⟨wellFormed_word rfl rfl w, rfl⟩
theorem EncodingShape.andIndX (p : Byte) : EncodingShape.Statement (.andIndX p) :=
  ⟨wellFormed_byte rfl rfl p, rfl⟩
theorem EncodingShape.andIndY (p : Byte) : EncodingShape.Statement (.andIndY p) :=
  ⟨wellFormed_byte rfl rfl p, rfl⟩
theorem EncodingShape.oraImm (m : Byte) : EncodingShape.Statement (.oraImm m) :=
  ⟨wellFormed_byte rfl rfl m, rfl⟩
theorem EncodingShape.oraZp (b : Byte) : EncodingShape.Statement (.oraZp b) :=
  ⟨wellFormed_byte rfl rfl b, rfl⟩
theorem EncodingShape.oraZpX (b : Byte) : EncodingShape.Statement (.oraZpX b) :=
  ⟨wellFormed_byte rfl rfl b, rfl⟩
theorem EncodingShape.oraAbs (w : Word) : EncodingShape.Statement (.oraAbs w) :=
  ⟨wellFormed_word rfl rfl w, rfl⟩
theorem EncodingShape.oraAbsX (w : Word) : EncodingShape.Statement (.oraAbsX w) :=
  ⟨wellFormed_word rfl rfl w, rfl⟩
theorem EncodingShape.oraAbsY (w : Word) : EncodingShape.Statement (.oraAbsY w) :=
  ⟨wellFormed_word rfl rfl w, rfl⟩
theorem EncodingShape.oraIndX (p : Byte) : EncodingShape.Statement (.oraIndX p) :=
  ⟨wellFormed_byte rfl rfl p, rfl⟩
theorem EncodingShape.oraIndY (p : Byte) : EncodingShape.Statement (.oraIndY p) :=
  ⟨wellFormed_byte rfl rfl p, rfl⟩
theorem EncodingShape.eorImm (m : Byte) : EncodingShape.Statement (.eorImm m) :=
  ⟨wellFormed_byte rfl rfl m, rfl⟩
theorem EncodingShape.eorZp (b : Byte) : EncodingShape.Statement (.eorZp b) :=
  ⟨wellFormed_byte rfl rfl b, rfl⟩
theorem EncodingShape.eorZpX (b : Byte) : EncodingShape.Statement (.eorZpX b) :=
  ⟨wellFormed_byte rfl rfl b, rfl⟩
theorem EncodingShape.eorAbs (w : Word) : EncodingShape.Statement (.eorAbs w) :=
  ⟨wellFormed_word rfl rfl w, rfl⟩
theorem EncodingShape.eorAbsX (w : Word) : EncodingShape.Statement (.eorAbsX w) :=
  ⟨wellFormed_word rfl rfl w, rfl⟩
theorem EncodingShape.eorAbsY (w : Word) : EncodingShape.Statement (.eorAbsY w) :=
  ⟨wellFormed_word rfl rfl w, rfl⟩
theorem EncodingShape.eorIndX (p : Byte) : EncodingShape.Statement (.eorIndX p) :=
  ⟨wellFormed_byte rfl rfl p, rfl⟩
theorem EncodingShape.eorIndY (p : Byte) : EncodingShape.Statement (.eorIndY p) :=
  ⟨wellFormed_byte rfl rfl p, rfl⟩
theorem EncodingShape.cmpImm (m : Byte) : EncodingShape.Statement (.cmpImm m) :=
  ⟨wellFormed_byte rfl rfl m, rfl⟩
theorem EncodingShape.cmpZp (b : Byte) : EncodingShape.Statement (.cmpZp b) :=
  ⟨wellFormed_byte rfl rfl b, rfl⟩
theorem EncodingShape.cmpZpX (b : Byte) : EncodingShape.Statement (.cmpZpX b) :=
  ⟨wellFormed_byte rfl rfl b, rfl⟩
theorem EncodingShape.cmpAbs (w : Word) : EncodingShape.Statement (.cmpAbs w) :=
  ⟨wellFormed_word rfl rfl w, rfl⟩
theorem EncodingShape.cmpAbsX (w : Word) : EncodingShape.Statement (.cmpAbsX w) :=
  ⟨wellFormed_word rfl rfl w, rfl⟩
theorem EncodingShape.cmpAbsY (w : Word) : EncodingShape.Statement (.cmpAbsY w) :=
  ⟨wellFormed_word rfl rfl w, rfl⟩
theorem EncodingShape.cmpIndX (p : Byte) : EncodingShape.Statement (.cmpIndX p) :=
  ⟨wellFormed_byte rfl rfl p, rfl⟩
theorem EncodingShape.cmpIndY (p : Byte) : EncodingShape.Statement (.cmpIndY p) :=
  ⟨wellFormed_byte rfl rfl p, rfl⟩
theorem EncodingShape.cpxImm (m : Byte) : EncodingShape.Statement (.cpxImm m) :=
  ⟨wellFormed_byte rfl rfl m, rfl⟩
theorem EncodingShape.cpxZp (b : Byte) : EncodingShape.Statement (.cpxZp b) :=
  ⟨wellFormed_byte rfl rfl b, rfl⟩
theorem EncodingShape.cpxAbs (w : Word) : EncodingShape.Statement (.cpxAbs w) :=
  ⟨wellFormed_word rfl rfl w, rfl⟩
theorem EncodingShape.cpyImm (m : Byte) : EncodingShape.Statement (.cpyImm m) :=
  ⟨wellFormed_byte rfl rfl m, rfl⟩
theorem EncodingShape.cpyZp (b : Byte) : EncodingShape.Statement (.cpyZp b) :=
  ⟨wellFormed_byte rfl rfl b, rfl⟩
theorem EncodingShape.cpyAbs (w : Word) : EncodingShape.Statement (.cpyAbs w) :=
  ⟨wellFormed_word rfl rfl w, rfl⟩
theorem EncodingShape.bitZp (b : Byte) : EncodingShape.Statement (.bitZp b) :=
  ⟨wellFormed_byte rfl rfl b, rfl⟩
theorem EncodingShape.bitAbs (w : Word) : EncodingShape.Statement (.bitAbs w) :=
  ⟨wellFormed_word rfl rfl w, rfl⟩
theorem EncodingShape.aslAcc : EncodingShape.Statement .aslAcc :=
  ⟨wellFormed_bare rfl rfl, rfl⟩
theorem EncodingShape.aslZp (b : Byte) : EncodingShape.Statement (.aslZp b) :=
  ⟨wellFormed_byte rfl rfl b, rfl⟩
theorem EncodingShape.aslZpX (b : Byte) : EncodingShape.Statement (.aslZpX b) :=
  ⟨wellFormed_byte rfl rfl b, rfl⟩
theorem EncodingShape.aslAbs (w : Word) : EncodingShape.Statement (.aslAbs w) :=
  ⟨wellFormed_word rfl rfl w, rfl⟩
theorem EncodingShape.aslAbsX (w : Word) : EncodingShape.Statement (.aslAbsX w) :=
  ⟨wellFormed_word rfl rfl w, rfl⟩
theorem EncodingShape.lsrAcc : EncodingShape.Statement .lsrAcc :=
  ⟨wellFormed_bare rfl rfl, rfl⟩
theorem EncodingShape.lsrZp (b : Byte) : EncodingShape.Statement (.lsrZp b) :=
  ⟨wellFormed_byte rfl rfl b, rfl⟩
theorem EncodingShape.lsrZpX (b : Byte) : EncodingShape.Statement (.lsrZpX b) :=
  ⟨wellFormed_byte rfl rfl b, rfl⟩
theorem EncodingShape.lsrAbs (w : Word) : EncodingShape.Statement (.lsrAbs w) :=
  ⟨wellFormed_word rfl rfl w, rfl⟩
theorem EncodingShape.lsrAbsX (w : Word) : EncodingShape.Statement (.lsrAbsX w) :=
  ⟨wellFormed_word rfl rfl w, rfl⟩
theorem EncodingShape.rolAcc : EncodingShape.Statement .rolAcc :=
  ⟨wellFormed_bare rfl rfl, rfl⟩
theorem EncodingShape.rolZp (b : Byte) : EncodingShape.Statement (.rolZp b) :=
  ⟨wellFormed_byte rfl rfl b, rfl⟩
theorem EncodingShape.rolZpX (b : Byte) : EncodingShape.Statement (.rolZpX b) :=
  ⟨wellFormed_byte rfl rfl b, rfl⟩
theorem EncodingShape.rolAbs (w : Word) : EncodingShape.Statement (.rolAbs w) :=
  ⟨wellFormed_word rfl rfl w, rfl⟩
theorem EncodingShape.rolAbsX (w : Word) : EncodingShape.Statement (.rolAbsX w) :=
  ⟨wellFormed_word rfl rfl w, rfl⟩
theorem EncodingShape.rorAcc : EncodingShape.Statement .rorAcc :=
  ⟨wellFormed_bare rfl rfl, rfl⟩
theorem EncodingShape.rorZp (b : Byte) : EncodingShape.Statement (.rorZp b) :=
  ⟨wellFormed_byte rfl rfl b, rfl⟩
theorem EncodingShape.rorZpX (b : Byte) : EncodingShape.Statement (.rorZpX b) :=
  ⟨wellFormed_byte rfl rfl b, rfl⟩
theorem EncodingShape.rorAbs (w : Word) : EncodingShape.Statement (.rorAbs w) :=
  ⟨wellFormed_word rfl rfl w, rfl⟩
theorem EncodingShape.rorAbsX (w : Word) : EncodingShape.Statement (.rorAbsX w) :=
  ⟨wellFormed_word rfl rfl w, rfl⟩
theorem EncodingShape.incZp (b : Byte) : EncodingShape.Statement (.incZp b) :=
  ⟨wellFormed_byte rfl rfl b, rfl⟩
theorem EncodingShape.incZpX (b : Byte) : EncodingShape.Statement (.incZpX b) :=
  ⟨wellFormed_byte rfl rfl b, rfl⟩
theorem EncodingShape.incAbs (w : Word) : EncodingShape.Statement (.incAbs w) :=
  ⟨wellFormed_word rfl rfl w, rfl⟩
theorem EncodingShape.incAbsX (w : Word) : EncodingShape.Statement (.incAbsX w) :=
  ⟨wellFormed_word rfl rfl w, rfl⟩
theorem EncodingShape.decZp (b : Byte) : EncodingShape.Statement (.decZp b) :=
  ⟨wellFormed_byte rfl rfl b, rfl⟩
theorem EncodingShape.decZpX (b : Byte) : EncodingShape.Statement (.decZpX b) :=
  ⟨wellFormed_byte rfl rfl b, rfl⟩
theorem EncodingShape.decAbs (w : Word) : EncodingShape.Statement (.decAbs w) :=
  ⟨wellFormed_word rfl rfl w, rfl⟩
theorem EncodingShape.decAbsX (w : Word) : EncodingShape.Statement (.decAbsX w) :=
  ⟨wellFormed_word rfl rfl w, rfl⟩
theorem EncodingShape.inx : EncodingShape.Statement .inx :=
  ⟨wellFormed_bare rfl rfl, rfl⟩
theorem EncodingShape.iny : EncodingShape.Statement .iny :=
  ⟨wellFormed_bare rfl rfl, rfl⟩
theorem EncodingShape.dex : EncodingShape.Statement .dex :=
  ⟨wellFormed_bare rfl rfl, rfl⟩
theorem EncodingShape.dey : EncodingShape.Statement .dey :=
  ⟨wellFormed_bare rfl rfl, rfl⟩
theorem EncodingShape.bcc (d : Byte) : EncodingShape.Statement (.bcc d) :=
  ⟨wellFormed_byte rfl rfl d, rfl⟩
theorem EncodingShape.bcs (d : Byte) : EncodingShape.Statement (.bcs d) :=
  ⟨wellFormed_byte rfl rfl d, rfl⟩
theorem EncodingShape.beq (d : Byte) : EncodingShape.Statement (.beq d) :=
  ⟨wellFormed_byte rfl rfl d, rfl⟩
theorem EncodingShape.bne (d : Byte) : EncodingShape.Statement (.bne d) :=
  ⟨wellFormed_byte rfl rfl d, rfl⟩
theorem EncodingShape.bmi (d : Byte) : EncodingShape.Statement (.bmi d) :=
  ⟨wellFormed_byte rfl rfl d, rfl⟩
theorem EncodingShape.bpl (d : Byte) : EncodingShape.Statement (.bpl d) :=
  ⟨wellFormed_byte rfl rfl d, rfl⟩
theorem EncodingShape.bvc (d : Byte) : EncodingShape.Statement (.bvc d) :=
  ⟨wellFormed_byte rfl rfl d, rfl⟩
theorem EncodingShape.bvs (d : Byte) : EncodingShape.Statement (.bvs d) :=
  ⟨wellFormed_byte rfl rfl d, rfl⟩
theorem EncodingShape.jmpAbs (w : Word) : EncodingShape.Statement (.jmpAbs w) :=
  ⟨wellFormed_word rfl rfl w, rfl⟩
theorem EncodingShape.jmpInd (w : Word) : EncodingShape.Statement (.jmpInd w) :=
  ⟨wellFormed_word rfl rfl w, rfl⟩
theorem EncodingShape.jsr (w : Word) : EncodingShape.Statement (.jsr w) :=
  ⟨wellFormed_word rfl rfl w, rfl⟩
theorem EncodingShape.rts : EncodingShape.Statement .rts :=
  ⟨wellFormed_bare rfl rfl, rfl⟩
theorem EncodingShape.pha : EncodingShape.Statement .pha :=
  ⟨wellFormed_bare rfl rfl, rfl⟩
theorem EncodingShape.pla : EncodingShape.Statement .pla :=
  ⟨wellFormed_bare rfl rfl, rfl⟩
theorem EncodingShape.php : EncodingShape.Statement .php :=
  ⟨wellFormed_bare rfl rfl, rfl⟩
theorem EncodingShape.plp : EncodingShape.Statement .plp :=
  ⟨wellFormed_bare rfl rfl, rfl⟩
theorem EncodingShape.brk : EncodingShape.Statement .brk :=
  ⟨wellFormed_bare rfl rfl, rfl⟩
theorem EncodingShape.rti : EncodingShape.Statement .rti :=
  ⟨wellFormed_bare rfl rfl, rfl⟩
theorem EncodingShape.sec : EncodingShape.Statement .sec :=
  ⟨wellFormed_bare rfl rfl, rfl⟩
theorem EncodingShape.clc : EncodingShape.Statement .clc :=
  ⟨wellFormed_bare rfl rfl, rfl⟩
theorem EncodingShape.sei : EncodingShape.Statement .sei :=
  ⟨wellFormed_bare rfl rfl, rfl⟩
theorem EncodingShape.cli : EncodingShape.Statement .cli :=
  ⟨wellFormed_bare rfl rfl, rfl⟩
theorem EncodingShape.sed : EncodingShape.Statement .sed :=
  ⟨wellFormed_bare rfl rfl, rfl⟩
theorem EncodingShape.cld : EncodingShape.Statement .cld :=
  ⟨wellFormed_bare rfl rfl, rfl⟩
theorem EncodingShape.clv : EncodingShape.Statement .clv :=
  ⟨wellFormed_bare rfl rfl, rfl⟩
theorem EncodingShape.nop : EncodingShape.Statement .nop :=
  ⟨wellFormed_bare rfl rfl, rfl⟩

end Sys2Proof.Laws
end

