-- ==== Sys2Proof/Laws/Step.lean ====
section
/-! SUPPORT. What a fetch and a step can do, said once. -/

namespace Sys2Proof.Machine

/-- A fetch that succeeds only moves PC past the instruction it gives. -/
theorem fetch_ok {s s' : State} {i : Instr} (h : s.fetch = .ok (i, s')) :
    s' = s.setPc (s.pc + BitVec.ofNat 16 i.length) := by
  simp only [State.fetch, State.fetch8, State.fetch16] at h
  split at h
  · cases h
  · rename_i j hj
    cases h
    have := opcodeMap_encodes hj
    simp only [FormEncodes] at this
    rw [this.2]
  · rename_i f hf
    cases h
    have := opcodeMap_encodes hf
    simp only [FormEncodes] at this
    rw [(this _).2]
    simp [State.setPc, BitVec.add_assoc]
  · rename_i f hf
    cases h
    have := opcodeMap_encodes hf
    simp only [FormEncodes] at this
    rw [(this _).2]
    simp [State.setPc, BitVec.add_assoc]

/-- A fetch fails exactly on an opcode the map does not have. -/
theorem fetch_error_iff {s : State} {f : Fault} :
    s.fetch = .error f ↔
      opcodeMap (s.mem.read s.pc) = none ∧ f = undefinedFault s (s.mem.read s.pc) := by
  simp only [State.fetch, State.fetch8, State.fetch16, State.read]
  split <;> rename_i h <;> simp [h, eq_comm]

/-- The bytes at PC that decode to an instruction are fetched as that instruction. -/
theorem fetch_of_decode {s : State} {i : Instr} {rest : List Byte}
    (h : decode [s.mem.read s.pc, s.mem.read (s.pc + 1#16), s.mem.read (s.pc + 2#16)] = .ok (i, rest)) :
    s.fetch = .ok (i, s.setPc (s.pc + BitVec.ofNat 16 i.length)) := by
  have key : ∃ s', s.fetch = .ok (i, s') := by
    simp only [decode] at h
    simp only [State.fetch, State.fetch8, State.fetch16, State.read]
    split at h <;> simp_all [State.setPc, BitVec.add_assoc]
  obtain ⟨s', hs⟩ := key
  rw [hs, fetch_ok hs]

/-- A step that answers a next state took an interrupt or ran the instruction it fetched. -/
theorem step_next_cases {s t : State} (h : step s = .next t) :
    (∃ src, s.pendingInterrupt = some src ∧ t = s.takeInterrupt src) ∨
    (s.pendingInterrupt = none ∧ ∃ i s', s.fetch = .ok (i, s') ∧ exec i s' = .next t) := by
  simp only [step] at h
  split at h
  · rename_i src hs
    cases h
    exact .inl ⟨src, hs, rfl⟩
  · rename_i hs
    split at h
    · cases h
    · rename_i i s' hf
      exact .inr ⟨hs, i, s', hf, h⟩

/-- No interrupt is pending exactly when NMI is clear and IRQ is low or masked. -/
theorem pendingInterrupt_none_iff (s : State) :
    s.pendingInterrupt = none ↔
      s.nmiPending = false ∧ (s.irqLine = false ∨ s.flags.i = true) := by
  simp only [State.pendingInterrupt]
  split <;> simp_all
  cases s.irqLine <;> simp_all

/-- With no interrupt pending, a step runs the instruction it fetches. -/
theorem step_of_fetch {s s' : State} {i : Instr} (hp : s.pendingInterrupt = none)
    (hf : s.fetch = .ok (i, s')) : step s = exec i s' := by
  simp only [step, hp, hf]

/-- Every instruction answers a next state. -/
theorem exec_answers (i : Instr) (s : State) : ∃ t, exec i s = .next t := by
  cases i <;> exact ⟨_, rfl⟩

end Sys2Proof.Machine
end

