-- ==== Sys2Proof/Tests/Slice0.lean ====
section
/-! SUPPORT. Tests and witnesses. Expected results are the spec's own: the encodings of opcode_table.json and
the derived vectors of 95_test_vectors.md part 2, whose start state `start` is. A witness meets every
hypothesis of the statement it is named after, clause by clause. -/

namespace Sys2Proof.Tests

open Sys2Proof.Machine Sys2Proof.Claims

def noFlags : Flags :=
  { c := false, z := false, i := false, d := false, b := false, v := false, n := false }

/-- The start state of the vectors of 95_test_vectors.md part 2. -/
def start : State := { State.reset with pc := 0x0200, sp := 0xFF, flags := noFlags, cycles := 0 }

end Sys2Proof.Tests

namespace Sys2Proof.Machine

/-- Instruction bytes at PC. -/
def State.withCode (s : State) (bytes : List Byte) : State :=
  { s with mem := s.mem.place s.pc bytes }

end Sys2Proof.Machine

namespace Sys2Proof.Tests

open Sys2Proof.Machine Sys2Proof.Claims

/-- The step answers a next state with a property. -/
def ends (s : State) (p : State → Bool) : Bool :=
  match step s with
  | .next t => p t
  | .fault _ => false
  | .refused _ => false

/-- The step faults with a property of the opcode, its address and the state after. -/
def faults (s : State) (p : Byte → Word → State → Bool) : Bool :=
  match step s with
  | .next _ => false
  | .fault (.undefinedInstruction op a t) => p op a t
  | .refused _ => false

/-! ## Decoding: every constructor, by its word in opcode_table.json -/

theorem test_decode_row_0 :
    decode [0x00] = .ok (.brk, []) ∧
    decode [0x01, 0x42] = .ok (.oraIndX 0x42, []) ∧
    decode [0x05, 0x42] = .ok (.oraZp 0x42, []) ∧
    decode [0x06, 0x42] = .ok (.aslZp 0x42, []) ∧
    decode [0x08] = .ok (.php, []) ∧
    decode [0x09, 0x42] = .ok (.oraImm 0x42, []) ∧
    decode [0x0A] = .ok (.aslAcc, []) ∧
    decode [0x0D, 0x34, 0x12] = .ok (.oraAbs 0x1234, []) ∧
    decode [0x0E, 0x34, 0x12] = .ok (.aslAbs 0x1234, []) :=
  ⟨rfl, rfl, rfl, rfl, rfl, rfl, rfl, rfl, rfl⟩

theorem test_decode_row_1 :
    decode [0x10, 0x42] = .ok (.bpl 0x42, []) ∧
    decode [0x11, 0x42] = .ok (.oraIndY 0x42, []) ∧
    decode [0x15, 0x42] = .ok (.oraZpX 0x42, []) ∧
    decode [0x16, 0x42] = .ok (.aslZpX 0x42, []) ∧
    decode [0x18] = .ok (.clc, []) ∧
    decode [0x19, 0x34, 0x12] = .ok (.oraAbsY 0x1234, []) ∧
    decode [0x1D, 0x34, 0x12] = .ok (.oraAbsX 0x1234, []) ∧
    decode [0x1E, 0x34, 0x12] = .ok (.aslAbsX 0x1234, []) :=
  ⟨rfl, rfl, rfl, rfl, rfl, rfl, rfl, rfl⟩

theorem test_decode_row_2 :
    decode [0x20, 0x34, 0x12] = .ok (.jsr 0x1234, []) ∧
    decode [0x21, 0x42] = .ok (.andIndX 0x42, []) ∧
    decode [0x24, 0x42] = .ok (.bitZp 0x42, []) ∧
    decode [0x25, 0x42] = .ok (.andZp 0x42, []) ∧
    decode [0x26, 0x42] = .ok (.rolZp 0x42, []) ∧
    decode [0x28] = .ok (.plp, []) ∧
    decode [0x29, 0x42] = .ok (.andImm 0x42, []) ∧
    decode [0x2A] = .ok (.rolAcc, []) ∧
    decode [0x2C, 0x34, 0x12] = .ok (.bitAbs 0x1234, []) ∧
    decode [0x2D, 0x34, 0x12] = .ok (.andAbs 0x1234, []) ∧
    decode [0x2E, 0x34, 0x12] = .ok (.rolAbs 0x1234, []) :=
  ⟨rfl, rfl, rfl, rfl, rfl, rfl, rfl, rfl, rfl, rfl, rfl⟩

theorem test_decode_row_3 :
    decode [0x30, 0x42] = .ok (.bmi 0x42, []) ∧
    decode [0x31, 0x42] = .ok (.andIndY 0x42, []) ∧
    decode [0x35, 0x42] = .ok (.andZpX 0x42, []) ∧
    decode [0x36, 0x42] = .ok (.rolZpX 0x42, []) ∧
    decode [0x38] = .ok (.sec, []) ∧
    decode [0x39, 0x34, 0x12] = .ok (.andAbsY 0x1234, []) ∧
    decode [0x3D, 0x34, 0x12] = .ok (.andAbsX 0x1234, []) ∧
    decode [0x3E, 0x34, 0x12] = .ok (.rolAbsX 0x1234, []) :=
  ⟨rfl, rfl, rfl, rfl, rfl, rfl, rfl, rfl⟩

theorem test_decode_row_4 :
    decode [0x40] = .ok (.rti, []) ∧
    decode [0x41, 0x42] = .ok (.eorIndX 0x42, []) ∧
    decode [0x45, 0x42] = .ok (.eorZp 0x42, []) ∧
    decode [0x46, 0x42] = .ok (.lsrZp 0x42, []) ∧
    decode [0x48] = .ok (.pha, []) ∧
    decode [0x49, 0x42] = .ok (.eorImm 0x42, []) ∧
    decode [0x4A] = .ok (.lsrAcc, []) ∧
    decode [0x4C, 0x34, 0x12] = .ok (.jmpAbs 0x1234, []) ∧
    decode [0x4D, 0x34, 0x12] = .ok (.eorAbs 0x1234, []) ∧
    decode [0x4E, 0x34, 0x12] = .ok (.lsrAbs 0x1234, []) :=
  ⟨rfl, rfl, rfl, rfl, rfl, rfl, rfl, rfl, rfl, rfl⟩

theorem test_decode_row_5 :
    decode [0x50, 0x42] = .ok (.bvc 0x42, []) ∧
    decode [0x51, 0x42] = .ok (.eorIndY 0x42, []) ∧
    decode [0x55, 0x42] = .ok (.eorZpX 0x42, []) ∧
    decode [0x56, 0x42] = .ok (.lsrZpX 0x42, []) ∧
    decode [0x58] = .ok (.cli, []) ∧
    decode [0x59, 0x34, 0x12] = .ok (.eorAbsY 0x1234, []) ∧
    decode [0x5D, 0x34, 0x12] = .ok (.eorAbsX 0x1234, []) ∧
    decode [0x5E, 0x34, 0x12] = .ok (.lsrAbsX 0x1234, []) :=
  ⟨rfl, rfl, rfl, rfl, rfl, rfl, rfl, rfl⟩

theorem test_decode_row_6 :
    decode [0x60] = .ok (.rts, []) ∧
    decode [0x61, 0x42] = .ok (.adcIndX 0x42, []) ∧
    decode [0x65, 0x42] = .ok (.adcZp 0x42, []) ∧
    decode [0x66, 0x42] = .ok (.rorZp 0x42, []) ∧
    decode [0x68] = .ok (.pla, []) ∧
    decode [0x69, 0x42] = .ok (.adcImm 0x42, []) ∧
    decode [0x6A] = .ok (.rorAcc, []) ∧
    decode [0x6C, 0x34, 0x12] = .ok (.jmpInd 0x1234, []) ∧
    decode [0x6D, 0x34, 0x12] = .ok (.adcAbs 0x1234, []) ∧
    decode [0x6E, 0x34, 0x12] = .ok (.rorAbs 0x1234, []) :=
  ⟨rfl, rfl, rfl, rfl, rfl, rfl, rfl, rfl, rfl, rfl⟩

theorem test_decode_row_7 :
    decode [0x70, 0x42] = .ok (.bvs 0x42, []) ∧
    decode [0x71, 0x42] = .ok (.adcIndY 0x42, []) ∧
    decode [0x75, 0x42] = .ok (.adcZpX 0x42, []) ∧
    decode [0x76, 0x42] = .ok (.rorZpX 0x42, []) ∧
    decode [0x78] = .ok (.sei, []) ∧
    decode [0x79, 0x34, 0x12] = .ok (.adcAbsY 0x1234, []) ∧
    decode [0x7D, 0x34, 0x12] = .ok (.adcAbsX 0x1234, []) ∧
    decode [0x7E, 0x34, 0x12] = .ok (.rorAbsX 0x1234, []) :=
  ⟨rfl, rfl, rfl, rfl, rfl, rfl, rfl, rfl⟩

theorem test_decode_row_8 :
    decode [0x81, 0x42] = .ok (.staIndX 0x42, []) ∧
    decode [0x84, 0x42] = .ok (.styZp 0x42, []) ∧
    decode [0x85, 0x42] = .ok (.staZp 0x42, []) ∧
    decode [0x86, 0x42] = .ok (.stxZp 0x42, []) ∧
    decode [0x88] = .ok (.dey, []) ∧
    decode [0x8A] = .ok (.txa, []) ∧
    decode [0x8C, 0x34, 0x12] = .ok (.styAbs 0x1234, []) ∧
    decode [0x8D, 0x34, 0x12] = .ok (.staAbs 0x1234, []) ∧
    decode [0x8E, 0x34, 0x12] = .ok (.stxAbs 0x1234, []) :=
  ⟨rfl, rfl, rfl, rfl, rfl, rfl, rfl, rfl, rfl⟩

theorem test_decode_row_9 :
    decode [0x90, 0x42] = .ok (.bcc 0x42, []) ∧
    decode [0x91, 0x42] = .ok (.staIndY 0x42, []) ∧
    decode [0x94, 0x42] = .ok (.styZpX 0x42, []) ∧
    decode [0x95, 0x42] = .ok (.staZpX 0x42, []) ∧
    decode [0x96, 0x42] = .ok (.stxZpY 0x42, []) ∧
    decode [0x98] = .ok (.tya, []) ∧
    decode [0x99, 0x34, 0x12] = .ok (.staAbsY 0x1234, []) ∧
    decode [0x9A] = .ok (.txs, []) ∧
    decode [0x9D, 0x34, 0x12] = .ok (.staAbsX 0x1234, []) :=
  ⟨rfl, rfl, rfl, rfl, rfl, rfl, rfl, rfl, rfl⟩

theorem test_decode_row_A :
    decode [0xA0, 0x42] = .ok (.ldyImm 0x42, []) ∧
    decode [0xA1, 0x42] = .ok (.ldaIndX 0x42, []) ∧
    decode [0xA2, 0x42] = .ok (.ldxImm 0x42, []) ∧
    decode [0xA4, 0x42] = .ok (.ldyZp 0x42, []) ∧
    decode [0xA5, 0x42] = .ok (.ldaZp 0x42, []) ∧
    decode [0xA6, 0x42] = .ok (.ldxZp 0x42, []) ∧
    decode [0xA8] = .ok (.tay, []) ∧
    decode [0xA9, 0x42] = .ok (.ldaImm 0x42, []) ∧
    decode [0xAA] = .ok (.tax, []) ∧
    decode [0xAC, 0x34, 0x12] = .ok (.ldyAbs 0x1234, []) ∧
    decode [0xAD, 0x34, 0x12] = .ok (.ldaAbs 0x1234, []) ∧
    decode [0xAE, 0x34, 0x12] = .ok (.ldxAbs 0x1234, []) :=
  ⟨rfl, rfl, rfl, rfl, rfl, rfl, rfl, rfl, rfl, rfl, rfl, rfl⟩

theorem test_decode_row_B :
    decode [0xB0, 0x42] = .ok (.bcs 0x42, []) ∧
    decode [0xB1, 0x42] = .ok (.ldaIndY 0x42, []) ∧
    decode [0xB4, 0x42] = .ok (.ldyZpX 0x42, []) ∧
    decode [0xB5, 0x42] = .ok (.ldaZpX 0x42, []) ∧
    decode [0xB6, 0x42] = .ok (.ldxZpY 0x42, []) ∧
    decode [0xB8] = .ok (.clv, []) ∧
    decode [0xB9, 0x34, 0x12] = .ok (.ldaAbsY 0x1234, []) ∧
    decode [0xBA] = .ok (.tsx, []) ∧
    decode [0xBC, 0x34, 0x12] = .ok (.ldyAbsX 0x1234, []) ∧
    decode [0xBD, 0x34, 0x12] = .ok (.ldaAbsX 0x1234, []) ∧
    decode [0xBE, 0x34, 0x12] = .ok (.ldxAbsY 0x1234, []) :=
  ⟨rfl, rfl, rfl, rfl, rfl, rfl, rfl, rfl, rfl, rfl, rfl⟩

theorem test_decode_row_C :
    decode [0xC0, 0x42] = .ok (.cpyImm 0x42, []) ∧
    decode [0xC1, 0x42] = .ok (.cmpIndX 0x42, []) ∧
    decode [0xC4, 0x42] = .ok (.cpyZp 0x42, []) ∧
    decode [0xC5, 0x42] = .ok (.cmpZp 0x42, []) ∧
    decode [0xC6, 0x42] = .ok (.decZp 0x42, []) ∧
    decode [0xC8] = .ok (.iny, []) ∧
    decode [0xC9, 0x42] = .ok (.cmpImm 0x42, []) ∧
    decode [0xCA] = .ok (.dex, []) ∧
    decode [0xCC, 0x34, 0x12] = .ok (.cpyAbs 0x1234, []) ∧
    decode [0xCD, 0x34, 0x12] = .ok (.cmpAbs 0x1234, []) ∧
    decode [0xCE, 0x34, 0x12] = .ok (.decAbs 0x1234, []) :=
  ⟨rfl, rfl, rfl, rfl, rfl, rfl, rfl, rfl, rfl, rfl, rfl⟩

theorem test_decode_row_D :
    decode [0xD0, 0x42] = .ok (.bne 0x42, []) ∧
    decode [0xD1, 0x42] = .ok (.cmpIndY 0x42, []) ∧
    decode [0xD5, 0x42] = .ok (.cmpZpX 0x42, []) ∧
    decode [0xD6, 0x42] = .ok (.decZpX 0x42, []) ∧
    decode [0xD8] = .ok (.cld, []) ∧
    decode [0xD9, 0x34, 0x12] = .ok (.cmpAbsY 0x1234, []) ∧
    decode [0xDD, 0x34, 0x12] = .ok (.cmpAbsX 0x1234, []) ∧
    decode [0xDE, 0x34, 0x12] = .ok (.decAbsX 0x1234, []) :=
  ⟨rfl, rfl, rfl, rfl, rfl, rfl, rfl, rfl⟩

theorem test_decode_row_E :
    decode [0xE0, 0x42] = .ok (.cpxImm 0x42, []) ∧
    decode [0xE1, 0x42] = .ok (.sbcIndX 0x42, []) ∧
    decode [0xE4, 0x42] = .ok (.cpxZp 0x42, []) ∧
    decode [0xE5, 0x42] = .ok (.sbcZp 0x42, []) ∧
    decode [0xE6, 0x42] = .ok (.incZp 0x42, []) ∧
    decode [0xE8] = .ok (.inx, []) ∧
    decode [0xE9, 0x42] = .ok (.sbcImm 0x42, []) ∧
    decode [0xEA] = .ok (.nop, []) ∧
    decode [0xEC, 0x34, 0x12] = .ok (.cpxAbs 0x1234, []) ∧
    decode [0xED, 0x34, 0x12] = .ok (.sbcAbs 0x1234, []) ∧
    decode [0xEE, 0x34, 0x12] = .ok (.incAbs 0x1234, []) :=
  ⟨rfl, rfl, rfl, rfl, rfl, rfl, rfl, rfl, rfl, rfl, rfl⟩

theorem test_decode_row_F :
    decode [0xF0, 0x42] = .ok (.beq 0x42, []) ∧
    decode [0xF1, 0x42] = .ok (.sbcIndY 0x42, []) ∧
    decode [0xF5, 0x42] = .ok (.sbcZpX 0x42, []) ∧
    decode [0xF6, 0x42] = .ok (.incZpX 0x42, []) ∧
    decode [0xF8] = .ok (.sed, []) ∧
    decode [0xF9, 0x34, 0x12] = .ok (.sbcAbsY 0x1234, []) ∧
    decode [0xFD, 0x34, 0x12] = .ok (.sbcAbsX 0x1234, []) ∧
    decode [0xFE, 0x34, 0x12] = .ok (.incAbsX 0x1234, []) :=
  ⟨rfl, rfl, rfl, rfl, rfl, rfl, rfl, rfl⟩

/-- Undefined bytes are refused by name (R86), and so are missing bytes (R80). -/
theorem test_decode_refusals :
    decode [0x02] = .error (.undefinedOpcode 0x02) ∧ decode [0xFF, 0x00] = .error (.undefinedOpcode 0xFF) ∧
    decode [] = .error .noBytes ∧ decode [0xA9] = .error (.missingOperand 0xA9) ∧
    decode [0xAD, 0x34] = .error (.missingOperand 0xAD) :=
  ⟨rfl, rfl, rfl, rfl, rfl⟩

set_option maxRecDepth 10000 in
/-- R86 counts 105 undefined bytes, and the map has the other 151. -/
theorem test_undefined_opcodes_are_the_rest :
    undefinedOpcodes.length = 105 ∧ opcodeRows.length = 151 ∧
    undefinedOpcodes.all (fun op => (opcodeMap op).isNone) = true := ⟨rfl, rfl, rfl⟩

/-- The table's numbering: bit 0 is the least significant bit of the opcode byte. -/
theorem test_decodeTableWord :
    decodeTableWord 24 0x1234AD = some (.ldaAbs 0x1234) ∧ decodeTableWord 8 0xE8 = some .inx ∧
    decodeTableWord 8 0x4C = some (.jmpAbs 0) ∧ decodeTableWord 8 0x02 = none := by decide

theorem test_withFetchWord_runs_first :
    ends (State.reset.withFetchWord 16 0x42A9) (fun t => t.a == 0x42 && t.pc == 0x0002) = true := by
  decide

/-! ## Well-formedness: an ill-formed term for each check -/

theorem test_mode_not_in_the_map : (RawInstr.mk .sta .immediate 0x10).wellFormed = false := by decide

theorem test_operand_too_large : (RawInstr.mk .lda .immediate 256).wellFormed = false := by decide

theorem test_operand_where_none : (RawInstr.mk .inx .implied 1).wellFormed = false := by decide

theorem test_launch_register_too_wide :
    ({ sp := some 256 } : LaunchRequest).registersOk = false ∧
    launch Config.launchDefaults { sp := some 256 } = none := by decide

theorem test_launch_flag_not_a_bit :
    ({ c := some 2 } : LaunchRequest).flagsOk = false ∧
    launch Config.launchDefaults { c := some 2 } = none := by decide

theorem test_launch_overlay_out_of_range :
    ({ overlay := [(65536, 0)] } : LaunchRequest).memoryOk = false ∧
    ({ overlay := [(0, 256)] } : LaunchRequest).memoryOk = false ∧
    ({ program := [256] } : LaunchRequest).memoryOk = false := by decide

/-! ## Arithmetic vectors (R160 to R162): value, C, Z, V, N -/

theorem test_decimal_add_vectors :
    addDec 0x99 0x01 true = ⟨0x01, true, false, false, true⟩ ∧
    addDec 0x99 0x01 false = ⟨0x00, true, false, false, true⟩ ∧
    addDec 0x58 0x46 true = ⟨0x05, true, false, true, true⟩ ∧
    addDec 0x12 0x34 false = ⟨0x46, false, false, false, false⟩ ∧
    addDec 0x15 0x26 false = ⟨0x41, false, false, false, false⟩ ∧
    addDec 0x81 0x92 false = ⟨0x73, true, false, true, false⟩ ∧
    addDec 0x50 0x50 false = ⟨0x00, true, false, true, true⟩ ∧
    addDec 0x0F 0x01 false = ⟨0x16, false, false, false, false⟩ := by decide

theorem test_decimal_subtract_vectors :
    subDec 0x46 0x12 true = ⟨0x34, true, false, false, false⟩ ∧
    subDec 0x40 0x13 true = ⟨0x27, true, false, false, false⟩ ∧
    subDec 0x32 0x02 false = ⟨0x29, true, false, false, false⟩ ∧
    subDec 0x12 0x21 true = ⟨0x91, false, false, false, true⟩ ∧
    subDec 0x00 0x01 true = ⟨0x99, false, false, false, true⟩ := by decide

theorem test_binary_vectors :
    addBin 0x50 0x50 false = ⟨0xA0, false, false, true, true⟩ ∧
    addBin 0xFF 0x00 true = ⟨0x00, true, true, false, false⟩ ∧
    addBin 0x80 0x80 false = ⟨0x00, true, true, true, false⟩ ∧
    addBin 0x7F 0x01 false = ⟨0x80, false, false, true, true⟩ ∧
    addBin 0xD0 0x90 false = ⟨0x60, true, false, true, false⟩ ∧
    addBin 0x50 (~~~0x10) true = ⟨0x40, true, false, false, false⟩ ∧
    addBin 0x00 (~~~0x01) true = ⟨0xFF, false, false, false, true⟩ ∧
    addBin 0x80 (~~~0x01) true = ⟨0x7F, true, false, true, false⟩ ∧
    addBin 0x05 (~~~0x05) false = ⟨0xFF, false, false, false, true⟩ ∧
    addBin 0x50 (~~~0xB0) true = ⟨0xA0, false, false, true, true⟩ := by decide

/-! ## Addressing modes (40_pipeline.md) -/

/-- zp,X wraps in page 0 (R114 (§8 zero-page wrap)). -/
theorem test_zp_x_wraps_in_page_0 :
    ends ((({ start with x := 0x20 }).load [(0x0010, 0x33), (0x0110, 0x99)]).withCode [0xB5, 0xF0]) (fun t =>
      t.pc == 0x0202 && t.a == 0x33 && t.cycles == 4) = true := by decide

/-- zp,Y wraps (LDX) (R114, R141). -/
theorem test_zp_y_wraps_ldx :
    ends ((({ start with y := 0x02 }).load [(0x0001, 0x7F)]).withCode [0xB6, 0xFF]) (fun t =>
      t.pc == 0x0202 && t.x == 0x7F && t.cycles == 4) = true := by decide

/-- absolute (R115). -/
theorem test_absolute :
    ends ((start.load [(0x1234, 0x00)]).withCode [0xAD, 0x34, 0x12]) (fun t =>
      t.pc == 0x0203 && t.flags.z && t.cycles == 4) = true := by decide

/-- abs,X crosses page (+1) (R116 (§8 page penalty)). -/
theorem test_abs_x_crosses_page :
    ends ((({ start with x := 0x20 }).load [(0x3110, 0x22)]).withCode [0xBD, 0xF0, 0x30]) (fun t =>
      t.pc == 0x0203 && t.a == 0x22 && t.cycles == 5) = true := by decide

/-- abs,Y crosses page (+1) (R116). -/
theorem test_abs_y_crosses_page :
    ends ((({ start with y := 0x01 }).load [(0x2100, 0x05)]).withCode [0xB9, 0xFF, 0x20]) (fun t =>
      t.pc == 0x0203 && t.a == 0x05 && t.cycles == 5) = true := by decide

/-- abs,X wraps at 0xFFFF (R116). -/
theorem test_abs_x_wraps_at_0xffff :
    ends ((({ start with x := 0x02 }).load [(0x0001, 0x44)]).withCode [0xBD, 0xFF, 0xFF]) (fun t =>
      t.pc == 0x0203 && t.a == 0x44 && t.cycles == 5) = true := by decide

/-- STA abs,X no cross: still 5 (R116, R143 (§8)). -/
theorem test_sta_abs_x_no_cross_still_5 :
    ends (({ start with a := 0x55, x := 0x01 }).withCode [0x9D, 0x00, 0x30]) (fun t =>
      t.pc == 0x0203 && t.mem.read 0x3001 == 0x55 && t.cycles == 5) = true := by decide

/-- STA abs,X cross: 5 (R116, R143). -/
theorem test_sta_abs_x_cross_5 :
    ends (({ start with a := 0x55, x := 0x01 }).withCode [0x9D, 0xFF, 0x30]) (fun t =>
      t.pc == 0x0203 && t.mem.read 0x3100 == 0x55 && t.cycles == 5) = true := by decide

/-- (zp,X) (R117). -/
theorem test_zp_x :
    ends ((({ start with x := 0x04 }).load [(0x0024, 0x00), (0x0025, 0x40), (0x4000, 0x66)]).withCode [0xA1, 0x20]) (fun t =>
      t.pc == 0x0202 && t.a == 0x66 && t.cycles == 6) = true := by decide

/-- (zp,X) pointer at 0xFF wraps (R117). -/
theorem test_zp_x_pointer_at_0xff_wraps :
    ends ((({ start with x := 0x01 }).load [(0x0000, 0x12), (0x00FF, 0x34), (0x0100, 0x99), (0x1234, 0x77)]).withCode [0xA1, 0xFE]) (fun t =>
      t.pc == 0x0202 && t.a == 0x77 && t.cycles == 6) = true := by decide

/-- (zp),Y cross (+1) (R118). -/
theorem test_zp_y_cross :
    ends ((({ start with y := 0x10 }).load [(0x0040, 0xF8), (0x0041, 0x50), (0x5108, 0x0B)]).withCode [0xB1, 0x40]) (fun t =>
      t.pc == 0x0202 && t.a == 0x0B && t.cycles == 6) = true := by decide

/-- (zp),Y pointer at 0xFF (R118). -/
theorem test_zp_y_pointer_at_0xff :
    ends ((({ start with y := 0x00 }).load [(0x0000, 0x60), (0x00FF, 0x00), (0x6000, 0x0C)]).withCode [0xB1, 0xFF]) (fun t =>
      t.pc == 0x0202 && t.a == 0x0C && t.cycles == 5) = true := by decide

/-- STA (zp),Y: 6 (R118, R143). -/
theorem test_sta_zp_y_6 :
    ends ((({ start with a := 0x99, y := 0x01 }).load [(0x0040, 0x00), (0x0041, 0x50)]).withCode [0x91, 0x40]) (fun t =>
      t.pc == 0x0202 && t.mem.read 0x5001 == 0x99 && t.cycles == 6) = true := by decide

/-- JMP ($30FF) page bug (R119, R219). -/
theorem test_jmp_30ff_page_bug :
    ends ((start.load [(0x3000, 0x50), (0x30FF, 0x80), (0x3100, 0x40)]).withCode [0x6C, 0xFF, 0x30]) (fun t =>
      t.pc == 0x5080 && t.cycles == 5) = true := by decide

/-- JMP ($1234) normal (R119, R219). -/
theorem test_jmp_1234_normal :
    ends ((start.load [(0x1234, 0x00), (0x1235, 0x90)]).withCode [0x6C, 0x34, 0x12]) (fun t =>
      t.pc == 0x9000 && t.cycles == 5) = true := by decide

/-! ## Load, store, transfer (41_load_store_transfer.md) -/

/-- LDA #$00 (R140). -/
theorem test_lda_00 :
    ends (({ start with flags := { noFlags with n := true } }).withCode [0xA9, 0x00]) (fun t =>
      t.pc == 0x0202 && t.flags.z && !t.flags.n && t.cycles == 2) = true := by decide

/-- LDA #$80 (R140). -/
theorem test_lda_80 :
    ends (({ start with flags := { noFlags with z := true } }).withCode [0xA9, 0x80]) (fun t =>
      t.pc == 0x0202 && t.a == 0x80 && !t.flags.z && t.flags.n && t.cycles == 2) = true := by decide

/-- LDX #$FF (R141). -/
theorem test_ldx_ff :
    ends ((start).withCode [0xA2, 0xFF]) (fun t =>
      t.pc == 0x0202 && t.x == 0xFF && t.flags.n && t.cycles == 2) = true := by decide

/-- LDY zp (R142). -/
theorem test_ldy_zp :
    ends ((({ start with flags := { noFlags with z := true, n := true } }).load [(0x0010, 0x01)]).withCode [0xA4, 0x10]) (fun t =>
      t.pc == 0x0202 && t.y == 0x01 && !t.flags.z && !t.flags.n && t.cycles == 3) = true := by decide

/-- STA zp (flags unchanged) (R143). -/
theorem test_sta_zp_flags_unchanged :
    ends ((({ start with a := 0x00, flags := { noFlags with z := false, n := true } }).load [(0x0010, 0x55)]).withCode [0x85, 0x10]) (fun t =>
      t.pc == 0x0202 && t.mem.read 0x0010 == 0x00 && t.cycles == 3) = true := by decide

/-- STX zp,Y wraps (R144). -/
theorem test_stx_zp_y_wraps :
    ends (({ start with x := 0xAB, y := 0x20 }).withCode [0x96, 0xF0]) (fun t =>
      t.pc == 0x0202 && t.mem.read 0x0010 == 0xAB && t.cycles == 4) = true := by decide

/-- STY abs (R145). -/
theorem test_sty_abs :
    ends (({ start with y := 0xCD }).withCode [0x8C, 0x00, 0x03]) (fun t =>
      t.pc == 0x0203 && t.mem.read 0x0300 == 0xCD && t.cycles == 4) = true := by decide

/-- TAX zero (R146). -/
theorem test_tax_zero :
    ends (({ start with a := 0x00, x := 0x55 }).withCode [0xAA]) (fun t =>
      t.pc == 0x0201 && t.x == 0x00 && t.flags.z && t.cycles == 2) = true := by decide

/-- TAY negative (R147). -/
theorem test_tay_negative :
    ends (({ start with a := 0x90 }).withCode [0xA8]) (fun t =>
      t.pc == 0x0201 && t.y == 0x90 && t.flags.n && t.cycles == 2) = true := by decide

/-- TSX (R148). -/
theorem test_tsx :
    ends (({ start with sp := 0x80 }).withCode [0xBA]) (fun t =>
      t.pc == 0x0201 && t.x == 0x80 && t.flags.n && t.cycles == 2) = true := by decide

/-- TXA (R149). -/
theorem test_txa :
    ends (({ start with a := 0x00, x := 0x7F, flags := { noFlags with z := true } }).withCode [0x8A]) (fun t =>
      t.pc == 0x0201 && t.a == 0x7F && !t.flags.z && t.cycles == 2) = true := by decide

/-- TXS no flags (R150). -/
theorem test_txs_no_flags :
    ends (({ start with x := 0x00 }).withCode [0x9A]) (fun t =>
      t.pc == 0x0201 && t.sp == 0x00 && t.cycles == 2) = true := by decide

/-- TYA (R151). -/
theorem test_tya :
    ends (({ start with y := 0xFF }).withCode [0x98]) (fun t =>
      t.pc == 0x0201 && t.a == 0xFF && t.flags.n && t.cycles == 2) = true := by decide

/-! ## Add, subtract, logic, compare, BIT (42_arith_logic.md) -/

/-- ADC 0x50+0x50 (R160, R164). -/
theorem test_adc_0x50_0x50 :
    ends (({ start with a := 0x50 }).withCode [0x69, 0x50]) (fun t =>
      t.pc == 0x0202 && t.a == 0xA0 && t.flags.v && t.flags.n && t.cycles == 2) = true := by decide

/-- SBC 0x50-0xB0 (R165). -/
theorem test_sbc_0x50_0xb0 :
    ends (({ start with a := 0x50, flags := { noFlags with c := true } }).withCode [0xE9, 0xB0]) (fun t =>
      t.pc == 0x0202 && t.a == 0xA0 && !t.flags.c && t.flags.v && t.flags.n && t.cycles == 2) = true := by decide

/-- ADC dec 0x58+0x46+1 (R161). -/
theorem test_adc_dec_0x58_0x46 :
    ends (({ start with a := 0x58, flags := { noFlags with d := true, c := true } }).withCode [0x69, 0x46]) (fun t =>
      t.pc == 0x0202 && t.a == 0x05 && t.flags.v && t.flags.n && t.cycles == 2) = true := by decide

/-- SBC dec 0x12-0x21 (R162). -/
theorem test_sbc_dec_0x12_0x21 :
    ends (({ start with a := 0x12, flags := { noFlags with d := true, c := true } }).withCode [0xE9, 0x21]) (fun t =>
      t.pc == 0x0202 && t.a == 0x91 && !t.flags.c && t.flags.n && t.cycles == 2) = true := by decide

/-- AND (R166). -/
theorem test_and :
    ends (({ start with a := 0xF0, flags := { noFlags with c := true, v := true } }).withCode [0x29, 0x0F]) (fun t =>
      t.pc == 0x0202 && t.a == 0x00 && t.flags.z && t.cycles == 2) = true := by decide

/-- ORA (R167). -/
theorem test_ora :
    ends (({ start with a := 0x01 }).withCode [0x09, 0x80]) (fun t =>
      t.pc == 0x0202 && t.a == 0x81 && t.flags.n && t.cycles == 2) = true := by decide

/-- EOR self (R168). -/
theorem test_eor_self :
    ends (({ start with a := 0xAA }).withCode [0x49, 0xAA]) (fun t =>
      t.pc == 0x0202 && t.a == 0x00 && t.flags.z && t.cycles == 2) = true := by decide

/-- CMP greater, N from diff (R169). -/
theorem test_cmp_greater_n_from_diff :
    ends (({ start with a := 0x90 }).withCode [0xC9, 0x01]) (fun t =>
      t.pc == 0x0202 && t.flags.c && t.flags.n && t.cycles == 2) = true := by decide

/-- CMP 0x00 vs 0xFF (R169). -/
theorem test_cmp_0x00_vs_0xff :
    ends (({ start with a := 0x00, flags := { noFlags with v := true } }).withCode [0xC9, 0xFF]) (fun t =>
      t.pc == 0x0202 && t.cycles == 2) = true := by decide

/-- CPX (R170). -/
theorem test_cpx :
    ends (({ start with x := 0x10 }).withCode [0xE0, 0x10]) (fun t =>
      t.pc == 0x0202 && t.flags.c && t.flags.z && t.cycles == 2) = true := by decide

/-- CPY (R171). -/
theorem test_cpy :
    ends (({ start with y := 0x7F }).withCode [0xC0, 0x80]) (fun t =>
      t.pc == 0x0202 && t.flags.n && t.cycles == 2) = true := by decide

/-- BIT zp (R172). -/
theorem test_bit_zp :
    ends ((({ start with a := 0x01 }).load [(0x0010, 0xC0)]).withCode [0x24, 0x10]) (fun t =>
      t.pc == 0x0202 && t.flags.z && t.flags.v && t.flags.n && t.cycles == 3) = true := by decide

/-- BIT abs (R172). -/
theorem test_bit_abs :
    ends ((({ start with a := 0xFF, flags := { noFlags with v := true, n := true, z := true } }).load [(0x3000, 0x01)]).withCode [0x2C, 0x00, 0x30]) (fun t =>
      t.pc == 0x0203 && !t.flags.z && !t.flags.v && !t.flags.n && t.cycles == 4) = true := by decide

/-! ## Shift, rotate, increment, decrement (43_shift_incdec.md) -/

/-- ASL A 0x80 (R191). -/
theorem test_asl_a_0x80 :
    ends (({ start with a := 0x80 }).withCode [0x0A]) (fun t =>
      t.pc == 0x0201 && t.a == 0x00 && t.flags.c && t.flags.z && t.cycles == 2) = true := by decide

/-- ASL abs,X 7 cycles (R190, R191). -/
theorem test_asl_abs_x_7_cycles :
    ends ((({ start with x := 0x01 }).load [(0x3001, 0x41)]).withCode [0x1E, 0x00, 0x30]) (fun t =>
      t.pc == 0x0203 && t.flags.n && t.mem.read 0x3001 == 0x82 && t.cycles == 7) = true := by decide

/-- LSR A 0x01 (R192). -/
theorem test_lsr_a_0x01 :
    ends (({ start with a := 0x01 }).withCode [0x4A]) (fun t =>
      t.pc == 0x0201 && t.a == 0x00 && t.flags.c && t.flags.z && t.cycles == 2) = true := by decide

/-- LSR zp (R192). -/
theorem test_lsr_zp :
    ends ((({ start with flags := { noFlags with n := true } }).load [(0x0010, 0xFF)]).withCode [0x46, 0x10]) (fun t =>
      t.pc == 0x0202 && t.flags.c && !t.flags.n && t.mem.read 0x0010 == 0x7F && t.cycles == 5) = true := by decide

/-- ROL A with C (R193). -/
theorem test_rol_a_with_c :
    ends (({ start with a := 0x40, flags := { noFlags with c := true } }).withCode [0x2A]) (fun t =>
      t.pc == 0x0201 && t.a == 0x81 && !t.flags.c && t.flags.n && t.cycles == 2) = true := by decide

/-- ROL zp 0x80 C=0 (R193). -/
theorem test_rol_zp_0x80_c_0 :
    ends ((start.load [(0x0010, 0x80)]).withCode [0x26, 0x10]) (fun t =>
      t.pc == 0x0202 && t.flags.c && t.flags.z && t.mem.read 0x0010 == 0x00 && t.cycles == 5) = true := by decide

/-- ROR A with C (R194). -/
theorem test_ror_a_with_c :
    ends (({ start with a := 0x00, flags := { noFlags with c := true } }).withCode [0x6A]) (fun t =>
      t.pc == 0x0201 && t.a == 0x80 && !t.flags.c && t.flags.n && t.cycles == 2) = true := by decide

/-- ROR zp (R194). -/
theorem test_ror_zp :
    ends ((({ start with flags := { noFlags with c := true } }).load [(0x0010, 0x02)]).withCode [0x66, 0x10]) (fun t =>
      t.pc == 0x0202 && !t.flags.c && t.flags.n && t.mem.read 0x0010 == 0x81 && t.cycles == 5) = true := by decide

/-- INC zp 0xFF (R195). -/
theorem test_inc_zp_0xff :
    ends ((({ start with flags := { noFlags with c := true } }).load [(0x0020, 0xFF)]).withCode [0xE6, 0x20]) (fun t =>
      t.pc == 0x0202 && t.flags.z && t.mem.read 0x0020 == 0x00 && t.cycles == 5) = true := by decide

/-- INC zp,X wraps (R195). -/
theorem test_inc_zp_x_wraps :
    ends ((({ start with x := 0x01 }).load [(0x0000, 0x7F)]).withCode [0xF6, 0xFF]) (fun t =>
      t.pc == 0x0202 && t.flags.n && t.mem.read 0x0000 == 0x80 && t.cycles == 6) = true := by decide

/-- DEC abs 0x00 (R196). -/
theorem test_dec_abs_0x00 :
    ends ((start).withCode [0xCE, 0x00, 0x30]) (fun t =>
      t.pc == 0x0203 && t.flags.n && t.mem.read 0x3000 == 0xFF && t.cycles == 6) = true := by decide

/-- DEC abs,X cross (R196). -/
theorem test_dec_abs_x_cross :
    ends ((({ start with x := 0xFF }).load [(0x10FF, 0x01)]).withCode [0xDE, 0x00, 0x10]) (fun t =>
      t.pc == 0x0203 && t.flags.z && t.mem.read 0x10FF == 0x00 && t.cycles == 7) = true := by decide

/-- INX 0xFF (R197). -/
theorem test_inx_0xff :
    ends (({ start with x := 0xFF }).withCode [0xE8]) (fun t =>
      t.pc == 0x0201 && t.x == 0x00 && t.flags.z && t.cycles == 2) = true := by decide

/-- INY (R198). -/
theorem test_iny :
    ends (({ start with y := 0x7F }).withCode [0xC8]) (fun t =>
      t.pc == 0x0201 && t.y == 0x80 && t.flags.n && t.cycles == 2) = true := by decide

/-- DEX 0x00 (R199). -/
theorem test_dex_0x00 :
    ends (({ start with x := 0x00 }).withCode [0xCA]) (fun t =>
      t.pc == 0x0201 && t.x == 0xFF && t.flags.n && t.cycles == 2) = true := by decide

/-- DEY 0x01 (R200). -/
theorem test_dey_0x01 :
    ends (({ start with y := 0x01 }).withCode [0x88]) (fun t =>
      t.pc == 0x0201 && t.y == 0x00 && t.flags.z && t.cycles == 2) = true := by decide

/-! ## Branches, jump, subroutine (44_control.md) -/

/-- BNE not taken (§8) (R214 (§8)). -/
theorem test_bne_not_taken :
    ends (({ start with pc := 0x00F0, flags := { noFlags with z := true } }).withCode [0xD0, 0x80]) (fun t =>
      t.pc == 0x00F2 && t.cycles == 2) = true := by decide

/-- BEQ taken forward (R213). -/
theorem test_beq_taken_forward :
    ends (({ start with flags := { noFlags with z := true } }).withCode [0xF0, 0x05]) (fun t =>
      t.pc == 0x0207 && t.cycles == 3) = true := by decide

/-- BEQ not taken (R213). -/
theorem test_beq_not_taken :
    ends ((start).withCode [0xF0, 0x05]) (fun t =>
      t.pc == 0x0202 && t.cycles == 2) = true := by decide

/-- BCC taken (R211). -/
theorem test_bcc_taken :
    ends ((start).withCode [0x90, 0x10]) (fun t =>
      t.pc == 0x0212 && t.cycles == 3) = true := by decide

/-- BCS not taken (R212). -/
theorem test_bcs_not_taken :
    ends ((start).withCode [0xB0, 0x10]) (fun t =>
      t.pc == 0x0202 && t.cycles == 2) = true := by decide

/-- BCS taken (R212). -/
theorem test_bcs_taken :
    ends (({ start with flags := { noFlags with c := true } }).withCode [0xB0, 0x10]) (fun t =>
      t.pc == 0x0212 && t.cycles == 3) = true := by decide

/-- BMI taken back across page (R215). -/
theorem test_bmi_taken_back_across_page :
    ends (({ start with pc := 0x0300, flags := { noFlags with n := true } }).withCode [0x30, 0xFC]) (fun t =>
      t.pc == 0x02FE && t.cycles == 4) = true := by decide

/-- BPL taken (R216). -/
theorem test_bpl_taken :
    ends (({ start with pc := 0x0300 }).withCode [0x10, 0x05]) (fun t =>
      t.pc == 0x0307 && t.cycles == 3) = true := by decide

/-- BVC not taken (R217). -/
theorem test_bvc_not_taken :
    ends (({ start with pc := 0x0400, flags := { noFlags with v := true } }).withCode [0x50, 0x02]) (fun t =>
      t.pc == 0x0402 && t.cycles == 2) = true := by decide

/-- BVS taken (R218). -/
theorem test_bvs_taken :
    ends (({ start with pc := 0x0400, flags := { noFlags with v := true } }).withCode [0x70, 0x02]) (fun t =>
      t.pc == 0x0404 && t.cycles == 3) = true := by decide

/-- branch wraps at 0xFFFF (R210). -/
theorem test_branch_wraps_at_0xffff :
    ends (({ start with pc := 0xFFF0 }).withCode [0xD0, 0x7F]) (fun t =>
      t.pc == 0x0071 && t.cycles == 4) = true := by decide

/-- JMP abs (R219). -/
theorem test_jmp_abs :
    ends ((start).withCode [0x4C, 0x34, 0x12]) (fun t =>
      t.pc == 0x1234 && t.cycles == 3) = true := by decide

/-- JSR (R220). -/
theorem test_jsr :
    ends (({ start with pc := 0x0600 }).withCode [0x20, 0x00, 0x10]) (fun t =>
      t.pc == 0x1000 && t.sp == 0xFD && t.mem.read 0x01FE == 0x02 && t.mem.read 0x01FF == 0x06
        && t.cycles == 6) = true := by decide

/-- JSR with SP=0x00 (R220). -/
theorem test_jsr_with_sp_0x00 :
    ends (({ start with sp := 0x00, pc := 0x0600 }).withCode [0x20, 0x00, 0x10]) (fun t =>
      t.pc == 0x1000 && t.sp == 0xFE && t.mem.read 0x0100 == 0x06 && t.mem.read 0x01FF == 0x02
        && t.cycles == 6) = true := by decide

/-- RTS (R221). -/
theorem test_rts :
    ends ((({ start with sp := 0xFD }).load [(0x01FE, 0x02), (0x01FF, 0x06)]).withCode [0x60]) (fun t =>
      t.pc == 0x0603 && t.sp == 0xFF && t.cycles == 6) = true := by decide

/-- RTS from 0xFFFF (R221). -/
theorem test_rts_from_0xffff :
    ends ((({ start with sp := 0xFD }).load [(0x01FE, 0xFF), (0x01FF, 0xFF)]).withCode [0x60]) (fun t =>
      t.pc == 0x0000 && t.sp == 0xFF && t.cycles == 6) = true := by decide

/-! ## Stack, BRK/RTI, flags, NOP (45_stack_system.md) -/

/-- PHA (R230). -/
theorem test_pha :
    ends (({ start with a := 0x42 }).withCode [0x48]) (fun t =>
      t.pc == 0x0201 && t.sp == 0xFE && t.mem.read 0x01FF == 0x42 && t.cycles == 3) = true := by decide

/-- PHA at SP=0x00 (R230). -/
theorem test_pha_at_sp_0x00 :
    ends (({ start with a := 0x42, sp := 0x00 }).withCode [0x48]) (fun t =>
      t.pc == 0x0201 && t.sp == 0xFF && t.mem.read 0x0100 == 0x42 && t.cycles == 3) = true := by decide

/-- PLA zero (R231). -/
theorem test_pla_zero :
    ends ((({ start with a := 0x11, sp := 0xFE }).load [(0x01FF, 0x00)]).withCode [0x68]) (fun t =>
      t.pc == 0x0201 && t.a == 0x00 && t.sp == 0xFF && t.flags.z && t.cycles == 4) = true := by decide

/-- PLA at SP=0xFF wraps (R231). -/
theorem test_pla_at_sp_0xff_wraps :
    ends ((start.load [(0x0100, 0x80)]).withCode [0x68]) (fun t =>
      t.pc == 0x0201 && t.a == 0x80 && t.sp == 0x00 && t.flags.n && t.cycles == 4) = true := by decide

/-- PHP (R232). -/
theorem test_php :
    ends (({ start with flags := { noFlags with n := true, b := true, i := true, c := true } }).withCode [0x08]) (fun t =>
      t.pc == 0x0201 && t.sp == 0xFE && t.mem.read 0x01FF == 0xB5 && t.cycles == 3) = true := by decide

/-- PLP 0xFF keeps B (R233). -/
theorem test_plp_0xff_keeps_b :
    ends ((({ start with sp := 0xFE }).load [(0x01FF, 0xFF)]).withCode [0x28]) (fun t =>
      t.pc == 0x0201 && t.sp == 0xFF && t.flags.c && t.flags.z && t.flags.i && t.flags.d
        && t.flags.v && t.flags.n && t.cycles == 4) = true := by decide

/-- PLP 0x00 (R233). -/
theorem test_plp_0x00 :
    ends ((({ start with sp := 0xFE, flags := { noFlags with c := true, z := true, i := true, d := true, b := true, v := true, n := true } }).load [(0x01FF, 0x00)]).withCode [0x28]) (fun t =>
      t.pc == 0x0201 && t.sp == 0xFF && !t.flags.c && !t.flags.z && !t.flags.i && !t.flags.d
        && !t.flags.v && !t.flags.n && t.cycles == 4) = true := by decide

/-- BRK (R236). -/
theorem test_brk :
    ends ((({ start with pc := 0x0300, flags := { noFlags with z := true } }).load [(0xFFFE, 0x00), (0xFFFF, 0x40)]).withCode [0x00]) (fun t =>
      t.pc == 0x4000 && t.sp == 0xFC && t.flags.i && t.mem.read 0x01FD == 0x32
        && t.mem.read 0x01FE == 0x02 && t.mem.read 0x01FF == 0x03 && t.cycles == 7) = true := by decide

/-- BRK with I=1, D=1 (R236). -/
theorem test_brk_with_i_1_d_1 :
    ends ((({ start with pc := 0x0300, flags := { noFlags with i := true, d := true } }).load [(0xFFFE, 0x00), (0xFFFF, 0x40)]).withCode [0x00]) (fun t =>
      t.pc == 0x4000 && t.sp == 0xFC && t.mem.read 0x01FD == 0x3C && t.mem.read 0x01FE == 0x02
        && t.mem.read 0x01FF == 0x03 && t.cycles == 7) = true := by decide

/-- RTI (R237). -/
theorem test_rti :
    ends ((({ start with sp := 0xFC, flags := { noFlags with i := true } }).load [(0x01FD, 0x32), (0x01FE, 0x02), (0x01FF, 0x03)]).withCode [0x40]) (fun t =>
      t.pc == 0x0302 && t.sp == 0xFF && t.flags.z && !t.flags.i && t.cycles == 6) = true := by decide

/-- RTI ignores bits 4,5 (R237). -/
theorem test_rti_ignores_bits_4_5 :
    ends ((({ start with sp := 0xFC }).load [(0x01FD, 0xFF), (0x01FE, 0x00), (0x01FF, 0x80)]).withCode [0x40]) (fun t =>
      t.pc == 0x8000 && t.sp == 0xFF && t.flags.c && t.flags.z && t.flags.i && t.flags.d
        && t.flags.v && t.flags.n && t.cycles == 6) = true := by decide

/-- SEC (R240). -/
theorem test_sec :
    ends ((start).withCode [0x38]) (fun t =>
      t.pc == 0x0201 && t.flags.c && t.cycles == 2) = true := by decide

/-- CLC (R241). -/
theorem test_clc :
    ends (({ start with flags := { noFlags with c := true } }).withCode [0x18]) (fun t =>
      t.pc == 0x0201 && !t.flags.c && t.cycles == 2) = true := by decide

/-- SEI (R242). -/
theorem test_sei :
    ends ((start).withCode [0x78]) (fun t =>
      t.pc == 0x0201 && t.flags.i && t.cycles == 2) = true := by decide

/-- CLI (R243). -/
theorem test_cli :
    ends (({ start with flags := { noFlags with i := true } }).withCode [0x58]) (fun t =>
      t.pc == 0x0201 && !t.flags.i && t.cycles == 2) = true := by decide

/-- SED (R244). -/
theorem test_sed :
    ends ((start).withCode [0xF8]) (fun t =>
      t.pc == 0x0201 && t.flags.d && t.cycles == 2) = true := by decide

/-- CLD (R245). -/
theorem test_cld :
    ends (({ start with flags := { noFlags with d := true } }).withCode [0xD8]) (fun t =>
      t.pc == 0x0201 && !t.flags.d && t.cycles == 2) = true := by decide

/-- CLV (R246). -/
theorem test_clv :
    ends (({ start with flags := { noFlags with v := true } }).withCode [0xB8]) (fun t =>
      t.pc == 0x0201 && !t.flags.v && t.cycles == 2) = true := by decide

/-- NOP (R247). -/
theorem test_nop :
    ends (({ start with pc := 0x0400 }).withCode [0xEA]) (fun t =>
      t.pc == 0x0401 && t.cycles == 2) = true := by decide

/-! ## Exceptions and interrupts (60_exceptions.md) -/

/-- undefined 0x02 (R260). -/
theorem test_undefined_0x02 :
    faults ((start).withCode [0x02])
      (fun op a t => op == 0x02 && a == 0x0200 && t.pc == 0x0201 && t.cycles == 1) = true := by decide

/-- undefined 0xFF (R260). -/
theorem test_undefined_0xff :
    faults (({ start with a := 0x12 }).withCode [0xFF])
      (fun op a t => op == 0xFF && a == 0x0200 && t.pc == 0x0201 && t.cycles == 1) = true := by decide

/-- IRQ taken (R263, R266). -/
theorem test_irq_taken :
    ends ((({ start with pc := 0x0345, flags := { noFlags with c := true }, irqLine := true }).load [(0xFFFE, 0x00), (0xFFFF, 0x80)]).withCode [0xEA]) (fun t =>
      t.pc == 0x8000 && t.sp == 0xFC && t.flags.i && t.mem.read 0x01FD == 0x21
        && t.mem.read 0x01FE == 0x45 && t.mem.read 0x01FF == 0x03 && t.cycles == 7) = true := by decide

/-- IRQ masked: NOP runs (R263). -/
theorem test_irq_masked_nop_runs :
    ends ((({ start with pc := 0x0300, flags := { noFlags with i := true }, irqLine := true }).load [(0xFFFE, 0x00), (0xFFFF, 0x80)]).withCode [0xEA]) (fun t =>
      t.pc == 0x0301 && t.cycles == 2) = true := by decide

/-- NMI taken with I=1 (R264, R266). -/
theorem test_nmi_taken_with_i_1 :
    ends ((({ start with pc := 0x0345, flags := { noFlags with i := true }, nmiPending := true }).load [(0xFFFA, 0x00), (0xFFFB, 0x90)]).withCode [0xEA]) (fun t =>
      t.pc == 0x9000 && t.sp == 0xFC && t.mem.read 0x01FD == 0x24 && t.mem.read 0x01FE == 0x45
        && t.mem.read 0x01FF == 0x03 && !t.nmiPending && t.cycles == 7) = true := by decide

/-- NMI and IRQ: NMI first (R267). -/
theorem test_nmi_and_irq_nmi_first :
    ends ((({ start with pc := 0x0345, irqLine := true, nmiPending := true }).load [(0xFFFA, 0x00), (0xFFFB, 0x90), (0xFFFE, 0x00), (0xFFFF, 0x80)]).withCode [0xEA]) (fun t =>
      t.pc == 0x9000 && t.sp == 0xFC && t.flags.i && t.mem.read 0x01FD == 0x20
        && t.mem.read 0x01FE == 0x45 && t.mem.read 0x01FF == 0x03 && !t.nmiPending
        && t.cycles == 7) = true := by decide

/-! ## Reset operation and host actions (70_reset_and_hazards.md) -/

theorem test_reset_operation :
    let s := { start.load [(0xFFFD, 0x06)] with
      a := 0x12, flags := { noFlags with d := true }, nmiPending := true, cycles := 100 }
    let t := hostAct .reset s
    t.pc = 0x0600 ∧ t.sp = 0xFC ∧ t.flags = { noFlags with d := true, i := true, b := true } ∧
    t.nmiPending = false ∧ t.a = 0x12 ∧ t.mem = s.mem ∧ t.cycles = 107 := by decide

theorem test_reset_operation_unloaded_vector :
    let t := hostAct .reset { start with pc := 0x1234, sp := 0x02 }
    t.pc = 0 ∧ t.sp = 0xFF ∧ t.flags.i = true ∧ t.flags.b = true ∧ t.cycles = 7 := by decide

theorem test_memory_reset :
    let t := hostAct .memoryReset { start.load [(0x0010, 0x55)] with a := 0x12 }
    t.mem = Memory.zero ∧ t.a = 0x12 ∧ t.pc = 0x0200 ∧ t.cycles = 0 := by decide

/-- The program wins over the overlay and wraps past 0xFFFF (R290). -/
theorem test_launch_places_program_over_overlay :
    (launch Config.launchDefaults
        { program := [0xA9, 0x42], overlay := [(0xFFFF, 0x11), (0x0300, 0x22)], pc := some 0xFFFF }).any
      (fun s => s.mem.read 0xFFFF == 0xA9 && s.mem.read 0x0000 == 0x42 && s.mem.read 0x0300 == 0x22)
      = true := by decide

/-- Writing the zero fill removes the cell, so equal memories are equal data. -/
theorem test_memory_is_canonical :
    ((Memory.zero.write 0x10 0x55).write 0x10 0x00) = Memory.zero ∧
    ((Memory.zero.write 2 1).write 1 1) = ((Memory.zero.write 1 1).write 2 1) := by decide

theorem test_host_pokes :
    (hostAct (.pokeRegister .sp 0x80) start).sp = 0x80 ∧
    (hostAct (.pokeFlag .v true) start).flags.v = true ∧ (hostAct (.pokePc 0x1234) start).pc = 0x1234 ∧
    (hostAct (.setIrq true) start).irqLine = true ∧ (hostAct .requestNmi start).nmiPending = true := by
  decide

/-! ## Witnesses: every hypothesis of a statement met -/


/-- A state about to run `code` at 0x0200. -/
def atCode (code : List Byte) : State := start.withCode code

def withNmi : State := { start with nmiPending := true }

def withIrq : State := { start with irqLine := true }

theorem witness_DecodedBytesAreTheEncoding :
    decode [0xAD, 0x34, 0x12, 0x99] = .ok (.ldaAbs 0x1234, [0x99]) := rfl

theorem witness_InstructionsAreTheMapEntries :
    (Instr.ldaImm 0xFF).raw = (Instr.ldaImm 0xFF).raw ∧
    (RawInstr.mk .lda .immediate 255).wellFormed = true ∧
    (RawInstr.mk .jmp .indirect 65535).wellFormed = true ∧ (RawInstr.mk .nop .implied 0).wellFormed = true := by
  decide

theorem witness_OpcodeAloneFixesModeAndLength :
    (encode (.ldaImm 0x00)).head? = (encode (.ldaImm 0xFF)).head? := by decide

/-- Both ways of being undisturbed: the line is low, or it is high and masked. -/
theorem witness_StepRunsTheDecodedInstruction :
    let s := atCode [0xBD, 0x34, 0x12]
    let masked := { s with irqLine := true, flags := { noFlags with i := true } }
    s.Undisturbed ∧ masked.Undisturbed ∧ decode (bytesAtPc s) = .ok (.ldaAbsX 0x1234, []) :=
  ⟨by decide, by decide, rfl⟩

/-- The instruction's bytes wrap past the end of memory. -/
theorem witness_StepRunsTheDecodedInstruction_at_the_end :
    let s := { start with pc := 0xFFFF }.withCode [0xAD, 0x34, 0x12]
    s.Undisturbed ∧ decode (bytesAtPc s) = .ok (.ldaAbs 0x1234, []) :=
  ⟨by decide, rfl⟩

/-- The first and the last byte of the list. -/
theorem witness_UndefinedOpcodeFaults :
    (atCode [0x02]).Undisturbed ∧ 0x02 ∈ undefinedOpcodes ∧ (atCode [0x02]).mem.read 0x0200 = 0x02 ∧
    (atCode [0xFF]).Undisturbed ∧ 0xFF ∈ undefinedOpcodes ∧ (atCode [0xFF]).mem.read 0x0200 = 0xFF := by
  decide

theorem witness_UndefinedOpcodeIsTheOnlyStop : ∃ f, step (atCode [0x02]) = .fault f := ⟨_, rfl⟩

/-- NMI with I set, both requests at once, and IRQ alone. -/
theorem witness_InterruptEntryForNmiAndIrq :
    { withNmi with flags := { noFlags with i := true } }.nmiPending = true ∧
    { withNmi with irqLine := true }.nmiPending = true ∧
    withIrq.nmiPending = false ∧ withIrq.irqLine = true ∧ withIrq.flags.i = false := by decide

theorem witness_MaskedIrqHasNoEffect :
    let s := { atCode [0xEA] with irqLine := true, flags := { noFlags with i := true } }
    s.nmiPending = false ∧ s.flags.i = true ∧ ∃ t, step s = .next t :=
  ⟨rfl, rfl, _, rfl⟩

theorem witness_SequentialPcAfterNonTransfers :
    let s := atCode [0xEA]
    s.Undisturbed ∧ decode (bytesAtPc s) = .ok (.nop, [0x00, 0x00]) ∧
    Instr.nop.mnemonic ∉ controlTransfers ∧ ∃ t, step s = .next t :=
  ⟨by decide, rfl, by decide, _, rfl⟩

theorem witness_CycleTotalsFollowTheTable :
    (¬ withNmi.Undisturbed ∧ ∃ t, step withNmi = .next t) ∧
    (¬ withIrq.Undisturbed ∧ ∃ t, step withIrq = .next t) ∧ ∃ f, step (atCode [0x02]) = .fault f :=
  ⟨⟨by decide, _, rfl⟩, ⟨by decide, _, rfl⟩, _, rfl⟩

theorem witness_CyclesGrowAndAreNeverRead :
    (∃ t, step (atCode [0xEA]) = .next t) ∧ ∃ t, step withNmi = .next t := ⟨⟨_, rfl⟩, _, rfl⟩

theorem witness_StoredBreakFlagIsWrittenByNoInstruction :
    (∃ t, exec .php start = .next t) ∧ (∃ t, exec .plp start = .next t) ∧
    Instr.plp.mnemonic ≠ .php := ⟨⟨_, rfl⟩, ⟨_, rfl⟩, by decide⟩

/-- A state that meets the invariant and steps on, and one that faults. -/
theorem witness_StepKeepsMemoryCanonical :
    ((atCode [0x48]).Inv ∧ ∃ t, step (atCode [0x48]) = .next t) ∧
    (atCode [0x02]).Inv ∧ ∃ f, step (atCode [0x02]) = .fault f :=
  ⟨⟨by decide, _, rfl⟩, by decide, _, rfl⟩

theorem witness_HostOperationsKeepMemoryCanonical :
    (atCode [0x48]).Inv ∧
    ∃ s, launch Config.launchDefaults { program := [0xA9], overlay := [(65535, 255)] } = some s :=
  ⟨by decide, _, rfl⟩

theorem witness_ResetOperationSetsWhatTheRuleNames : ∀ a, start.mem.read a = 0#8 := fun _ => rfl

/-- A request out of range, and one in range at the bounds, with a program byte that stays, an overlay
byte outside the program and an address neither names. -/
theorem witness_LaunchBuildsTheHarnessState :
    ({ pc := some 65536 } : LaunchRequest).wellFormed = false ∧
    let r : LaunchRequest :=
      { program := [0xA9, 0xFF], overlay := [(0, 1), (65535, 255)], pc := some 0x0200, sp := some 255
        n := some 1 }
    r.wellFormed = true ∧ r.program[1]? = some 0xFF ∧ r.program.length - 1 ≤ 65536 ∧
    r.overlay = [(0, 1)] ++ ((0xFFFF : Word).toNat, 255) :: [] ∧
    (∀ p ∈ [(0, 1)] ++ ([] : List (Nat × Nat)), p.1 ≠ (0xFFFF : Word).toNat) ∧
    (∀ k, k < r.program.length → (0xFFFF : Word) ≠ 0x0200 + BitVec.ofNat 16 k) ∧
    (∀ k, k < r.program.length → (0x8000 : Word) ≠ 0x0200 + BitVec.ofNat 16 k) ∧
    (∀ p ∈ r.overlay, p.1 ≠ (0x8000 : Word).toNat) := by decide

theorem witness_HostMemoryOperationsWriteOnlyMemory :
    ([(0x0000, 1), (0xFFFF, 2)].map Prod.fst : List Word).Nodup ∧
    ((0xFFFF, 2) : Word × Byte) ∈ [(0x0000, 1), (0xFFFF, 2)] ∧
    (0x8000 : Word) ∉ ([(0x0000, 1), (0xFFFF, 2)].map Prod.fst : List Word) := by decide

theorem witness_InterruptInputsBelongToTheHost :
    (∃ t, step withNmi = .next t) ∧ (∃ t, step withIrq = .next t) ∧ ∃ t, step (atCode [0xEA]) = .next t :=
  ⟨⟨_, rfl⟩, ⟨_, rfl⟩, _, rfl⟩

/-- The least and the greatest bytes of two decimal digits. -/
theorem witness_DecimalAddIsDigitwise :
    ValidDecimal 0x00 ∧ ValidDecimal 0x99 ∧ ¬ ValidDecimal 0x0A ∧ ¬ ValidDecimal 0xA0 := by
  simp [ValidDecimal]

theorem witness_DecimalSubtractIsDigitwise : ValidDecimal 0x00 ∧ ValidDecimal 0x99 := by
  simp [ValidDecimal]

/-- The lists of forms are not empty: the immediate and the last form of each kind. -/
theorem witness_forms_of_reads :
    ⟨.ldaImm 0xFF, [0xA9, 0xFF], .imm 0xFF, 2⟩ ∈ ldaForms start 0xFF 0xFFFF ∧
    ⟨.ldxImm 0xFF, [0xA2, 0xFF], .imm 0xFF, 2⟩ ∈ ldxForms start 0xFF 0xFFFF ∧
    ⟨.ldyImm 0xFF, [0xA0, 0xFF], .imm 0xFF, 2⟩ ∈ ldyForms start 0xFF 0xFFFF ∧
    ⟨.andImm 0xFF, [0x29, 0xFF], .imm 0xFF, 2⟩ ∈ andForms start 0xFF 0xFFFF ∧
    ⟨.oraImm 0xFF, [0x09, 0xFF], .imm 0xFF, 2⟩ ∈ oraForms start 0xFF 0xFFFF ∧
    ⟨.eorImm 0xFF, [0x49, 0xFF], .imm 0xFF, 2⟩ ∈ eorForms start 0xFF 0xFFFF ∧
    ⟨.cmpImm 0xFF, [0xC9, 0xFF], .imm 0xFF, 2⟩ ∈ cmpForms start 0xFF 0xFFFF ∧
    ⟨.cpxImm 0xFF, [0xE0, 0xFF], .imm 0xFF, 2⟩ ∈ cpxForms 0xFF 0xFFFF ∧
    ⟨.cpyImm 0xFF, [0xC0, 0xFF], .imm 0xFF, 2⟩ ∈ cpyForms 0xFF 0xFFFF ∧
    ⟨.bitZp 0xFF, [0x24, 0xFF], .mem (.zp 0xFF), 3⟩ ∈ bitForms 0xFF 0xFFFF := by
  simp [ldaForms, ldxForms, ldyForms, andForms, oraForms, eorForms, cmpForms, cpxForms, cpyForms, bitForms]

theorem witness_forms_of_stores :
    ⟨.staZp 0xFF, [0x85, 0xFF], .zp 0xFF, 3⟩ ∈ staForms 0xFF 0xFFFF ∧
    ⟨.stxZp 0xFF, [0x86, 0xFF], .zp 0xFF, 3⟩ ∈ stxForms 0xFF 0xFFFF ∧
    ⟨.styZp 0xFF, [0x84, 0xFF], .zp 0xFF, 3⟩ ∈ styForms 0xFF 0xFFFF ∧
    ⟨.aslZp 0xFF, [0x06, 0xFF], .zp 0xFF, 5⟩ ∈ aslForms 0xFF 0xFFFF ∧
    ⟨.lsrZp 0xFF, [0x46, 0xFF], .zp 0xFF, 5⟩ ∈ lsrForms 0xFF 0xFFFF ∧
    ⟨.rolZp 0xFF, [0x26, 0xFF], .zp 0xFF, 5⟩ ∈ rolForms 0xFF 0xFFFF ∧
    ⟨.rorZp 0xFF, [0x66, 0xFF], .zp 0xFF, 5⟩ ∈ rorForms 0xFF 0xFFFF ∧
    ⟨.incZp 0xFF, [0xE6, 0xFF], .zp 0xFF, 5⟩ ∈ incForms 0xFF 0xFFFF ∧
    ⟨.decZp 0xFF, [0xC6, 0xFF], .zp 0xFF, 5⟩ ∈ decForms 0xFF 0xFFFF := by
  simp [staForms, stxForms, styForms, aslForms, lsrForms, rolForms, rorForms, incForms, decForms]

/-- Binary and decimal mode. -/
theorem witness_AdcAddsWithCarry :
    ⟨.adcImm 0xFF, [0x69, 0xFF], .imm 0xFF, 2⟩ ∈ adcForms start 0xFF 0xFFFF ∧
    start.flags.d = false ∧ { start with flags := { noFlags with d := true } }.flags.d = true :=
  ⟨by simp [adcForms], rfl, rfl⟩

theorem witness_SbcSubtractsWithBorrow :
    ⟨.sbcImm 0xFF, [0xE9, 0xFF], .imm 0xFF, 2⟩ ∈ sbcForms start 0xFF 0xFFFF ∧
    start.flags.d = false ∧ { start with flags := { noFlags with d := true } }.flags.d = true :=
  ⟨by simp [sbcForms], rfl, rfl⟩

/-- Each condition false in one state and true in another. -/
theorem witness_BranchesFollowTheirFlag :
    (!noFlags.c) = true ∧ noFlags.c = false ∧ noFlags.z = false ∧ (!noFlags.z) = true ∧
    noFlags.n = false ∧ (!noFlags.n) = true ∧ (!noFlags.v) = true ∧ noFlags.v = false ∧
    (!{ noFlags with c := true }.c) = false ∧ { noFlags with c := true }.c = true ∧
    { noFlags with z := true }.z = true ∧ (!{ noFlags with z := true }.z) = false ∧
    { noFlags with n := true }.n = true ∧ (!{ noFlags with n := true }.n) = false ∧
    (!{ noFlags with v := true }.v) = false ∧ { noFlags with v := true }.v = true := by decide

theorem witness_JsrThenRtsRoundTrip :
    let s := (start.load [(0x1000, 0x60)]).withCode [0x20, 0x00, 0x10]
    s.Undisturbed ∧ decode (bytesAtPc s) = .ok (.jsr 0x1000, []) ∧
    ∃ t, step s = .next t ∧ t.mem.read 0x1000 = 0x60 :=
  ⟨by decide, rfl, _, rfl, by decide⟩

theorem witness_PhaThenPlaRestoresA :
    let s := atCode [0x48, 0x68]
    s.Undisturbed ∧ s.mem.read s.pc = 0x48 ∧ ∃ t, step s = .next t ∧ t.mem.read t.pc = 0x68 :=
  ⟨by decide, by decide, _, rfl, by decide⟩

/-- The return state is the entry's own next state, after an NMI, an IRQ and BRK. -/
theorem witness_ReturnFromHandlerResumesTheInterrupted :
    (¬ withNmi.Undisturbed ∧ ∃ t, step withNmi = .next t ∧ t.flags.b = withNmi.flags.b) ∧
    (¬ withIrq.Undisturbed ∧ ∃ t, step withIrq = .next t ∧ t.flags.b = withIrq.flags.b) ∧
    ∃ t, exec .brk start = .next t ∧ t.flags.b = start.flags.b :=
  ⟨⟨by decide, _, rfl, rfl⟩, ⟨by decide, _, rfl, rfl⟩, _, rfl, rfl⟩

/-- NOP writes nothing, so it meets every clause of the three statements about writers and stores. -/
theorem witness_writers_and_stores :
    (∃ t, exec .nop start = .next t) ∧ (∃ t, exec (.staZp 0xFF) start = .next t) ∧
    Instr.nop.mnemonic = .nop ∧ Instr.nop.mode ≠ .accumulator ∧ storeTargets .nop start = [] ∧
    storeTargets (.staZp 0xFF) start = [0x00FF] := ⟨⟨_, rfl⟩, ⟨_, rfl⟩, by decide⟩

end Sys2Proof.Tests
end

section
/-! PROOFS. The host's memory operations (R50, R292): what each stores, and that it leaves every other byte. -/

namespace Sys2Proof.Machine

/-- With distinct addresses no later pair of the image overwrites an earlier one (R292). -/
theorem Memory.read_load_of_mem (m : Memory) {image : List (Word × Byte)} {p : Word × Byte}
    (hd : (image.map Prod.fst).Nodup) (hp : p ∈ image) : (m.load image).read p.1 = p.2 := by
  induction image generalizing m with
  | nil => cases hp
  | cons q rest ih =>
    obtain ⟨a, v⟩ := q
    obtain ⟨ha, hrest⟩ := List.nodup_cons.mp hd
    rcases List.mem_cons.mp hp with rfl | hp
    · have hother : ∀ q ∈ rest, q.1 ≠ a := fun q hq e => ha (List.mem_map.mpr ⟨q, hq, e⟩)
      rw [Memory.load, Memory.read_load_other _ _ _ hother, Memory.read_write_same]
    · exact ih (m.write a v) hrest hp

end Sys2Proof.Machine

namespace Sys2Proof.Claims

open Sys2Proof.Machine

/-- The frame of a single write (R50, R56). -/
theorem unchangedOutside_write (s : State) (a : Word) (v : Byte) :
    UnchangedOutside [a] s (s.write a v) := fun b hb =>
  Memory.read_write_other s.mem a b v (List.ne_of_not_mem_cons hb)

/-- The frame of an image load, whether or not its addresses are distinct (R292). -/
theorem unchangedOutside_load (s : State) (image : List (Word × Byte)) :
    UnchangedOutside (image.map Prod.fst) s (s.load image) := fun a ha =>
  Memory.read_load_other s.mem image a fun p hp e => ha (List.mem_map.mpr ⟨p, hp, e⟩)

/-- Settles O21: each operation is one update of `mem`, so only the bytes are to be compared. -/
theorem hostMemoryOperationsWriteOnlyMemory : Obligations.HostMemoryOperationsWriteOnlyMemory := by
  intro s
  refine ⟨fun a v => ?poke, fun image => ?load, ?reset⟩
  case poke =>
    exact ⟨s.write a v, rfl, rfl, Memory.read_write_same s.mem a v, unchangedOutside_write s a v⟩
  case load =>
    exact ⟨s.load image, rfl, rfl, fun hd _ hp => Memory.read_load_of_mem s.mem hd hp,
      unchangedOutside_load s image⟩
  case reset => exact ⟨s.memoryReset, rfl, rfl, Memory.read_zero⟩

end Sys2Proof.Claims
end

section
/-! PROOFS. The pipeline (R105, R113 to R116): which instructions leave PC where the fetch put it, and the
effective addresses of the zero-page and absolute modes. -/

namespace Sys2Proof.Machine

/-- Only the control transfers of R105 have a meaning that writes PC. -/
theorem exec_pc_of_not_controlTransfer {i : Instr} {s t : State}
    (hi : i.mnemonic ∉ controlTransfers) (h : exec i s = .next t) : t.pc = s.pc := by
  cases i
  case bcc | bcs | beq | bne | bmi | bpl | bvc | bvs | jmpAbs | jmpInd | jsr | rts | brk | rti =>
    exact absurd (by simp [controlTransfers, Instr.mnemonic, Instr.raw]) hi
  all_goals
    cases h
    rfl

/-- A mode that adds no index has its base as effective address. -/
theorem ea_eq_base_of_index_zero {m : MemMode} {s : State} (h : m.index s = 0#8) :
    m.ea s = m.base s := by
  simp [MemMode.ea, h, zext16]

/-- A mode that adds no index crosses no page. -/
theorem px_eq_false_of_index_zero {m : MemMode} {s : State} (h : m.index s = 0#8) :
    m.px s = false := by
  simp [MemMode.px, ea_eq_base_of_index_zero h]

/-- A mode that adds no index to a zero-extended byte stays in page zero (R113, R114). -/
theorem toNat_ea_of_base_zext16 {m : MemMode} {s : State} {v : Byte} (h : m.index s = 0#8)
    (hb : m.base s = zext16 v) : (m.ea s).toNat = v.toNat := by
  rw [ea_eq_base_of_index_zero h, hb, toNat_zext16]

end Sys2Proof.Machine

namespace Sys2Proof.Claims

open Sys2Proof.Machine

/-- Settles O11: the fetch moves PC past the instruction, and only a control transfer moves it again. -/
theorem sequentialPcAfterNonTransfers : Obligations.SequentialPcAfterNonTransfers := by
  intro s t i rest hu hd hi hstep
  have hnone : s.pendingInterrupt = none := (pendingInterrupt_none_iff s).mpr hu
  rw [step_of_fetch hnone (fetch_of_decode hd)] at hstep
  exact exec_pc_of_not_controlTransfer hi hstep

/-- Settles O23: the index is added to the operand within a byte, before the zero extension, and nothing
is added after it. -/
theorem zeroPageAddressesWrapInPageZero : Obligations.ZeroPageAddressesWrapInPageZero := by
  intro s b
  exact
    ⟨toNat_ea_of_base_zext16 rfl rfl, px_eq_false_of_index_zero rfl,
      (toNat_ea_of_base_zext16 rfl rfl).trans (BitVec.toNat_add b s.x), px_eq_false_of_index_zero rfl,
      (toNat_ea_of_base_zext16 rfl rfl).trans (BitVec.toNat_add b s.y), px_eq_false_of_index_zero rfl⟩

/-- Settles O24: the base of all three modes is the operand, so each clause is what `toNat_ea` or `px_iff`
says of the mode. -/
theorem absoluteIndexedAddressesCarry : Obligations.AbsoluteIndexedAddressesCarry := by
  intro s w
  exact ⟨ea_eq_base_of_index_zero rfl, px_eq_false_of_index_zero rfl,
    toNat_ea (.absX w) s, px_iff (.absX w) s, toNat_ea (.absY w) s, px_iff (.absY w) s⟩

end Sys2Proof.Claims
end

section
/-! PROOFS. Loads, stores and transfers (R140 to R151): the bytes of a form decode by its row of the opcode
map, and its meaning is one shared operation, whose flags and cycle total are those the claim names. -/

namespace Sys2Proof.Claims

open Sys2Proof.Machine

/-- An opcode whose row has no operand decodes alone (R80, R82). -/
theorem decodesTo_bare {op : Byte} {i : Instr} (h : opcodeMap op = some (.bare i)) :
    DecodesTo [op] i := by
  simp only [DecodesTo, decode, h]

/-- An opcode whose row takes a byte decodes with the byte after it (R80, R87). -/
theorem decodesTo_byte {op b : Byte} {form : Byte → Instr} (h : opcodeMap op = some (.byte form)) :
    DecodesTo [op, b] (form b) := by
  simp only [DecodesTo, decode, h]

/-- An opcode whose row takes a word decodes with the word after it, low byte first (R80, R87). -/
theorem decodesTo_word {op : Byte} {w : Word} {form : Word → Instr}
    (h : opcodeMap op = some (.word form)) : DecodesTo [op, loByte w, hiByte w] (form w) := by
  simp only [DecodesTo, decode, h, wordOf_hiByte_loByte]

/-- A one-byte instruction has the effect its meaning gives. -/
theorem oneByte_of_exec {op : Byte} {i : Instr} {s t : State} (h : opcodeMap op = some (.bare i))
    (hx : exec i s = .next t) : OneByte op i s t :=
  ⟨decodesTo_bare h, hx⟩

/-- `SetZN` in arithmetic: zero, and at least 128 (R11). -/
theorem setZN_eq_withZN (f : Flags) (v : Byte) : f.setZN v = withZN f v := by
  have hz : v = 0#8 ↔ v.toNat = 0 := BitVec.toNat_inj.symm
  simp only [Flags.setZN, withZN, hz, bit_seven]

/-- A form loads into a register when its meaning puts the operand there, with `SetZN` and the cycle total
of its operand (R140 to R142). -/
theorem loadsInto_of_exec {put : State → Byte → State} {s : State} {f : ReadForm}
    (hd : DecodesTo f.bytes f.instr)
    (hx : exec f.instr s = .next { put s (f.operand.value s) with
      flags := s.flags.setZN (f.operand.value s), cycles := s.cycles + f.operand.readCycles s })
    (hc : f.operand.readCycles s = f.cycles) : LoadsInto put s f := by
  rw [hc, setZN_eq_withZN] at hx
  exact ⟨hd, hx⟩

/-- A form stores a byte when its meaning is the shared store, with the cycle total of its mode (R143 to
R145). -/
theorem stores_of_exec {v : Byte} {s : State} {f : MemForm} (hd : DecodesTo f.bytes f.instr)
    (hx : exec f.instr s = .next (s.store v f.mode)) (hc : f.mode.storeCycles = f.cycles) :
    Stores v s f := by
  refine ⟨hd, s.store v f.mode, hx, ?_, ?_, ?_⟩
  · rw [store_eq, hc]
  · exact Memory.read_write_same s.mem (f.mode.ea s) v
  · exact unchangedOutside_write s (f.mode.ea s) v

/-- Settles O30: each form's row of the map gives its constructor, whose meaning is the shared store. -/
theorem storesWriteOneByteAndNoFlag : Obligations.StoresWriteOneByteAndNoFlag := by
  intro s k w
  simp only [staForms, stxForms, styForms, ← List.forall_iff_forall_mem, List.Forall]
  refine ⟨⟨?staZp, ?staZpX, ?staAbs, ?staAbsX, ?staAbsY, ?staIndX, ?staIndY⟩,
    ⟨?stxZp, ?stxZpY, ?stxAbs⟩, ⟨?styZp, ?styZpX, ?styAbs⟩⟩
  case staAbs | staAbsX | staAbsY | stxAbs | styAbs =>
    exact stores_of_exec (decodesTo_word rfl) rfl rfl
  all_goals exact stores_of_exec (decodesTo_byte rfl) rfl rfl

/-- Settles O28: each form's row of the map gives its constructor, whose meaning loads A. -/
theorem ldaLoadsA : Obligations.LdaLoadsA := by
  intro s k w
  simp only [ldaForms, ← List.forall_iff_forall_mem, List.Forall]
  refine ⟨?imm, ?zp, ?zpX, ?abs, ?absX, ?absY, ?indX, ?indY⟩
  case abs | absX | absY => exact loadsInto_of_exec (decodesTo_word rfl) rfl rfl
  all_goals exact loadsInto_of_exec (decodesTo_byte rfl) rfl rfl

/-- Settles O29: each form's row of the map gives its constructor, whose meaning loads X or Y. -/
theorem ldxAndLdyLoadTheirRegister : Obligations.LdxAndLdyLoadTheirRegister := by
  intro s k w
  simp only [ldxForms, ldyForms, ← List.forall_iff_forall_mem, List.Forall]
  refine ⟨⟨?ldxImm, ?ldxZp, ?ldxZpY, ?ldxAbs, ?ldxAbsY⟩,
    ⟨?ldyImm, ?ldyZp, ?ldyZpX, ?ldyAbs, ?ldyAbsX⟩⟩
  case ldxAbs | ldxAbsY | ldyAbs | ldyAbsX => exact loadsInto_of_exec (decodesTo_word rfl) rfl rfl
  all_goals exact loadsInto_of_exec (decodesTo_byte rfl) rfl rfl

/-- Settles O31: the meaning of each transfer is the copy, with `SetZN` of the byte except for TXS. -/
theorem transfersCopyRegisters : Obligations.TransfersCopyRegisters := by
  intro s
  simp only [← setZN_eq_withZN]
  exact ⟨oneByte_of_exec rfl rfl, oneByte_of_exec rfl rfl, oneByte_of_exec rfl rfl,
    oneByte_of_exec rfl rfl, oneByte_of_exec rfl rfl, oneByte_of_exec rfl rfl⟩

end Sys2Proof.Claims
end


section
/-! PROOFS. Logic, compare and BIT (R163, R166 to R172): the flags of a compare and of BIT in arithmetic, then
each form by its row of the opcode map and the shared operation that is its meaning. -/

namespace Sys2Proof

theorem lookupForm_append (op : Byte) (xs ys : List (Byte × Form)) :
    lookupForm op (xs ++ ys) = (lookupForm op xs).or (lookupForm op ys) := by
  induction xs with
  | nil => rfl
  | cons p rest ih =>
    obtain ⟨k, form⟩ := p
    simp only [List.cons_append, lookupForm, ih]
    split <;> rfl

/-- The opcode map, row by row (R84): the first row that has the opcode gives its form. Looking an opcode of
the last rows up in one row at a time keeps the evaluation shallow. -/
theorem opcodeMap_of_rows {op : Byte} {form : Form}
    (h : [opcodeRow0, opcodeRow1, opcodeRow2, opcodeRow3, opcodeRow4, opcodeRow5, opcodeRow6, opcodeRow7,
      opcodeRow8, opcodeRow9, opcodeRowA, opcodeRowB, opcodeRowC, opcodeRowD, opcodeRowE,
      opcodeRowF].foldl (fun found row => found.or (lookupForm op row)) none = some form) :
    opcodeMap op = some form := by
  rw [← h]
  simp only [opcodeMap, opcodeRows, lookupForm_append, List.foldl, Option.none_or]

end Sys2Proof

namespace Sys2Proof.Machine

/-- Bit 6 of a byte is the upper half of its low seven bits. -/
theorem bit_six (b : Byte) : bit b 6 = decide (64 ≤ b.toNat % 128) := by
  rw [Bool.eq_iff_iff]
  simp only [bit, BitVec.getLsbD, Nat.testBit_eq_decide_div_mod_eq, decide_eq_true_eq]
  omega

/-- The difference of two bytes wraps modulo 256 (R163). -/
theorem toNat_sub_byte (r m : Byte) : ((r - m).toNat : Int) = ((r.toNat : Int) - m.toNat) % 256 := by
  have hm := m.isLt
  rw [BitVec.toNat_sub]
  omega

/-- Z of BIT, read bit by bit: the AND is 0 exactly when no bit is set in both bytes (R172). -/
theorem and_eq_zero_iff_no_common_bit (a m : Byte) :
    a &&& m = 0#8 ↔ ∀ i : Fin 8, ¬ (a.toNat.testBit i = true ∧ m.toNat.testBit i = true) := by
  have hbit (i : Fin 8) : (a &&& m).getLsbD i = false ↔
      ¬ (a.toNat.testBit i = true ∧ m.toNat.testBit i = true) := by
    rw [BitVec.getLsbD_and, ← Bool.not_eq_true, Bool.and_eq_true]
    rfl
  constructor
  · intro h i
    rw [← hbit, h, BitVec.getLsbD_zero]
  · intro h
    refine BitVec.eq_of_getLsbD_eq fun i hi => ?_
    rw [(hbit ⟨i, hi⟩).mpr (h ⟨i, hi⟩), BitVec.getLsbD_zero]

/-- `Compare` in arithmetic: C at least, Z equal, N from the wrapped difference (R163). -/
theorem Flags.compare_eq (f : Flags) (r m : Byte) :
    f.compare r m = { f with
      c := decide (m.toNat ≤ r.toNat)
      z := decide (r.toNat = m.toNat)
      n := decide (128 ≤ ((r.toNat : Int) - m.toNat) % 256) } := by
  have hn : 128 ≤ (r - m).toNat ↔ 128 ≤ ((r.toNat : Int) - m.toNat) % 256 := by
    rw [← toNat_sub_byte]
    omega
  simp only [Flags.compare, bit_seven, hn, BitVec.toNat_inj]

/-- The flags of BIT in arithmetic (R172). -/
theorem Flags.bitTest_eq (f : Flags) (a m : Byte) :
    f.bitTest a m = { f with
      z := decide (∀ i : Fin 8, ¬ (a.toNat.testBit i = true ∧ m.toNat.testBit i = true))
      n := decide (128 ≤ m.toNat)
      v := decide (64 ≤ m.toNat % 128) } := by
  simp only [Flags.bitTest, and_eq_zero_iff_no_common_bit, bit_seven, bit_six]

end Sys2Proof.Machine

namespace Sys2Proof.Claims

open Sys2Proof.Machine

/-- A form compares a register when its meaning is the shared compare, with the cycle total of its operand
(R169 to R171). -/
theorem compares_of_exec {reg : Byte} {s : State} {f : ReadForm} (hd : DecodesTo f.bytes f.instr)
    (hx : exec f.instr s = .next (s.cmp reg f.operand)) (hc : f.operand.readCycles s = f.cycles) :
    Compares reg s f := by
  rw [cmp_eq, hc, Flags.compare_eq] at hx
  exact ⟨hd, hx⟩

/-- A form puts a byte into A when its meaning does, with `SetZN` of it and the cycle total of its operand
(R166 to R168). -/
theorem putsInA_of_exec {r : Byte → Byte} {s : State} {f : ReadForm} (hd : DecodesTo f.bytes f.instr)
    (hx : exec f.instr s = .next { s with
      a := r (f.operand.value s), flags := s.flags.setZN (r (f.operand.value s))
      cycles := s.cycles + f.operand.readCycles s })
    (hc : f.operand.readCycles s = f.cycles) : PutsInA r s f := by
  rw [hc, setZN_eq_withZN] at hx
  exact ⟨hd, hx⟩

/-- Settles O35: each form's row of the map gives its constructor, whose meaning is the shared compare of
its register, and that reads no D. -/
theorem comparesSetFlagsOnly : Obligations.ComparesSetFlagsOnly := by
  intro s k w
  simp only [cmpForms, cpxForms, cpyForms, ← List.forall_iff_forall_mem, List.Forall]
  refine ⟨⟨?cmpImm, ?cmpZp, ?cmpZpX, ?cmpAbs, ?cmpAbsX, ?cmpAbsY, ?cmpIndX, ?cmpIndY⟩,
    ⟨?cpxImm, ?cpxZp, ?cpxAbs⟩, ⟨?cpyImm, ?cpyZp, ?cpyAbs⟩⟩
  case cmpAbs | cmpAbsX | cmpAbsY | cpxAbs | cpyAbs =>
    exact compares_of_exec (decodesTo_word (opcodeMap_of_rows rfl)) rfl rfl
  all_goals exact compares_of_exec (decodesTo_byte (opcodeMap_of_rows rfl)) rfl rfl

/-- Settles O36: both forms have the shared bit test as meaning, whose flags `Flags.bitTest_eq` gives. -/
theorem bitTestsTheOperand : Obligations.BitTestsTheOperand := by
  intro s k w
  simp only [bitForms, ← List.forall_iff_forall_mem, List.Forall, ← Flags.bitTest_eq]
  exact ⟨⟨decodesTo_byte rfl, rfl⟩, ⟨decodesTo_word rfl, rfl⟩⟩

/-- Settles O34: each form's row of the map gives its constructor, whose meaning is the shared logical
operation with the bitwise combination its mnemonic names. -/
theorem logicalInstructionsCombineWithA : Obligations.LogicalInstructionsCombineWithA := by
  intro s k w
  simp only [andForms, oraForms, eorForms, ← List.forall_iff_forall_mem, List.Forall]
  refine ⟨⟨?andImm, ?andZp, ?andZpX, ?andAbs, ?andAbsX, ?andAbsY, ?andIndX, ?andIndY⟩,
    ⟨?oraImm, ?oraZp, ?oraZpX, ?oraAbs, ?oraAbsX, ?oraAbsY, ?oraIndX, ?oraIndY⟩,
    ⟨?eorImm, ?eorZp, ?eorZpX, ?eorAbs, ?eorAbsX, ?eorAbsY, ?eorIndX, ?eorIndY⟩⟩
  case andAbs | andAbsX | andAbsY | oraAbs | oraAbsX | oraAbsY | eorAbs | eorAbsX | eorAbsY =>
    exact putsInA_of_exec (decodesTo_word rfl) rfl rfl
  all_goals exact putsInA_of_exec (decodesTo_byte rfl) rfl rfl

end Sys2Proof.Claims
end

section
/-! PROOFS. Register counts (R197 to R200): adding and subtracting 1 modulo 256 in arithmetic, then each
instruction by its row of the opcode map and its meaning. -/

namespace Sys2Proof.Machine

/-- A byte counted up, in arithmetic modulo 256 (R197, R198). -/
theorem ofNat_toNat_add_one (v : Byte) : BitVec.ofNat 8 (v.toNat + 1) = v + 1#8 := by
  rw [BitVec.ofNat_add, BitVec.ofNat_toNat, BitVec.setWidth_eq]

/-- A byte counted down: 255 is -1 modulo 256 (R199, R200). -/
theorem ofNat_toNat_add_255 (v : Byte) : BitVec.ofNat 8 (v.toNat + 255) = v - 1#8 := by
  have hneg : 255#8 = -1#8 := rfl
  rw [BitVec.ofNat_add, BitVec.ofNat_toNat, BitVec.setWidth_eq, hneg, BitVec.sub_eq_add_neg]

end Sys2Proof.Machine

namespace Sys2Proof.Claims

open Sys2Proof.Machine

/-- Settles O40: with the counts read as byte addition and subtraction of 1, and the flags as `SetZN`, each
claim is the meaning of its instruction. -/
theorem indexRegistersCountByOne : Obligations.IndexRegistersCountByOne := by
  intro s
  simp only [ofNat_toNat_add_one, ofNat_toNat_add_255, ← setZN_eq_withZN]
  refine ⟨?inx, ?iny, ?dex, ?dey⟩
  all_goals exact oneByte_of_exec (opcodeMap_of_rows rfl) rfl

end Sys2Proof.Claims
end

section
/-! PROOFS. Subroutines (R220 to R222): a word pulled from where it was pushed is that word, and JSR and RTS
as whole steps. -/

namespace Sys2Proof.Machine

/-- Pulling a word just pushed gives it back and restores SP, whatever else has changed since (D3). -/
theorem pullWord_of_pushWord {s t : State} {w : Word} (hsp : t.sp = (s.pushWord w).sp)
    (hmem : t.mem = (s.pushWord w).mem) : t.pullWord = (w, { t with sp := s.sp }) := by
  simp only [pushWord_eq] at hsp hmem
  have hlow : t.sp + 1#8 = s.sp - 1#8 := by rw [hsp]; bv_omega
  have hhigh : t.sp + 2#8 = s.sp := by rw [hsp, BitVec.sub_add_cancel]
  have hne : stackAddr s.sp ≠ stackAddr (s.sp - 1#8) := (stackAddr_inj _ _).not.mpr (ne_sub_one s.sp)
  rw [pullWord_eq, hlow, hhigh, hmem, Memory.read_write_same, Memory.read_write_other _ _ _ _ hne,
    Memory.read_write_same, wordOf_hiByte_loByte]

/-- An opcode without operand at PC is fetched alone (R101). -/
theorem fetch_of_bare {s : State} {i : Instr} (h : opcodeMap (s.mem.read s.pc) = some (.bare i)) :
    s.fetch = .ok (i, s.setPc (s.pc + 1#16)) := by
  simp only [State.fetch, State.fetch8, State.read_eq, h]

/-- An undisturbed step at an opcode without operand runs its instruction, with PC past the opcode
(R101, R102). -/
theorem step_of_bare {s : State} {i : Instr} (hu : s.Undisturbed)
    (h : opcodeMap (s.mem.read s.pc) = some (.bare i)) : step s = exec i (s.setPc (s.pc + 1#16)) :=
  step_of_fetch ((pendingInterrupt_none_iff s).mpr hu) (fetch_of_bare h)

/-- An RTS as a whole step goes to the word it pulls, plus 1 (R221). -/
theorem step_rts {s u : State} {ret : Word} (hu : s.Undisturbed) (hop : s.mem.read s.pc = 0x60#8)
    (hpull : s.pullWord = (ret, u)) :
    step s = .next { u with pc := ret + 1#16, cycles := s.cycles + 6 } := by
  have hmap : opcodeMap (s.mem.read s.pc) = some (.bare .rts) := by
    rw [hop]
    exact opcodeMap_of_rows rfl
  have hexec : exec .rts (s.setPc (s.pc + 1#16)) =
      .next { s.pullWord.2 with pc := s.pullWord.1 + 1#16, cycles := s.cycles + 6 } := rfl
  rw [step_of_bare hu hmap, hexec, hpull]

end Sys2Proof.Machine

namespace Sys2Proof.Claims

open Sys2Proof.Machine

/-- An undisturbed step runs the instruction at PC, with PC past its bytes (R101, R102). -/
theorem step_of_decode {s : State} {i : Instr} {rest : List Byte} (hu : s.Undisturbed)
    (hd : decode (bytesAtPc s) = .ok (i, rest)) :
    step s = exec i (s.setPc (s.pc + BitVec.ofNat 16 i.length)) :=
  step_of_fetch ((pendingInterrupt_none_iff s).mpr hu) (fetch_of_decode hd)

/-- A JSR as a whole step pushes its own address plus 2, the address of its last byte (R220). -/
theorem step_jsr {s : State} {w : Word} {rest : List Byte} (hu : s.Undisturbed)
    (hd : decode (bytesAtPc s) = .ok (.jsr w, rest)) :
    step s = .next { s.pushWord (s.pc + 2#16) with pc := w, cycles := s.cycles + 6 } := by
  have hlast : s.pc + 3#16 - 1#16 = s.pc + 2#16 := by bv_omega
  rw [← hlast]
  exact step_of_decode hu hd

/-- Settles O45: JSR changes neither flag nor interrupt input, so RTS is the next step, and it pulls the word
JSR pushed. -/
theorem jsrThenRtsRoundTrip : Obligations.JsrThenRtsRoundTrip := by
  intro s t w rest hu hd hstep hop
  rw [step_jsr hu hd] at hstep
  cases hstep
  refine ⟨_, step_rts hu hop (pullWord_of_pushWord (s := s) rfl rfl), ?pc, rfl, rfl⟩
  case pc => exact BitVec.add_assoc s.pc 2#16 1#16

end Sys2Proof.Claims
end

section
/-! PROOFS. PLP, the flag instructions and NOP (R233, R240 to R247): a pulled status byte in arithmetic, then
each instruction by its row of the opcode map and its meaning. -/

namespace Sys2Proof.Machine

/-- Bit `k` of a byte, in arithmetic. -/
theorem bit_eq_decide_div_mod (b : Byte) (k : Nat) : bit b k = decide (b.toNat / 2 ^ k % 2 = 1) :=
  Nat.testBit_eq_decide_div_mod_eq

/-- The flags loaded from a pulled byte, in arithmetic (R29). -/
theorem Flags.unpack_eq (f : Flags) (m : Byte) :
    f.unpack m =
      { c := decide (m.toNat % 2 = 1), z := decide (m.toNat / 2 % 2 = 1)
        i := decide (m.toNat / 4 % 2 = 1), d := decide (m.toNat / 8 % 2 = 1), b := f.b
        v := decide (m.toNat / 64 % 2 = 1), n := decide (128 ≤ m.toNat) } := by
  have h0 : bit m 0 = decide (m.toNat % 2 = 1) := by
    rw [bit_eq_decide_div_mod, Nat.pow_zero, Nat.div_one]
  rw [Flags.unpack, h0, bit_seven]
  simp only [bit_eq_decide_div_mod, Nat.reducePow]

end Sys2Proof.Machine

namespace Sys2Proof.Claims

open Sys2Proof.Machine

/-- Settles O49: PLP unpacks the byte it pulls, and `Flags.unpack_eq` reads that byte bit by bit. -/
theorem plpLoadsSixFlags : Obligations.PlpLoadsSixFlags := by
  intro s
  simp only [← Flags.unpack_eq]
  exact oneByte_of_exec rfl rfl

/-- Settles O53: each opcode's row gives its instruction, whose meaning is the one update the claim names. -/
theorem flagInstructionsAndNop : Obligations.FlagInstructionsAndNop := by
  intro s
  refine ⟨?sec, ?clc, ?sei, ?cli, ?sed, ?cld, ?clv, ?nop⟩
  all_goals exact oneByte_of_exec (opcodeMap_of_rows rfl) rfl

end Sys2Proof.Claims
end

section
/-! PROOFS. The encoding (R80 to R87): every instruction is a row of the opcode map with an operand in
range. What the claims say of instructions is then read off the rows. -/

namespace Sys2Proof

/-- The instruction a row's form builds from an operand number. -/
def Form.instr (form : Form) (n : Nat) : Instr :=
  match form with
  | .bare i => i
  | .byte f => f (BitVec.ofNat 8 n)
  | .word f => f (BitVec.ofNat 16 n)

/-- The cell of the map a form stands for: its mnemonic and mode. -/
def Form.cell (form : Form) : Mnemonic × AddrMode := ((form.instr 0).mnemonic, (form.instr 0).mode)

/-- An instruction is what the row of its opcode builds from an operand of the row's width. -/
def HasRow (i : Instr) : Prop :=
  ∃ op form n, (encode i).head? = some op ∧ opcodeMap op = some form ∧
    n < 256 ^ form.operandBytes ∧ i = form.instr n

theorem hasRow_bare {op : Byte} {i : Instr} (hop : (encode i).head? = some op)
    (h : opcodeMap op = some (.bare i)) : HasRow i :=
  ⟨op, .bare i, 0, hop, h, Nat.one_pos, rfl⟩

theorem hasRow_byte {op b : Byte} {f : Byte → Instr} (hop : (encode (f b)).head? = some op)
    (h : opcodeMap op = some (.byte f)) : HasRow (f b) :=
  ⟨op, .byte f, b.toNat, hop, h, b.isLt, by rw [Form.instr, BitVec.ofNat_toNat, BitVec.setWidth_eq]⟩

theorem hasRow_word {op : Byte} {w : Word} {f : Word → Instr} (hop : (encode (f w)).head? = some op)
    (h : opcodeMap op = some (.word f)) : HasRow (f w) :=
  ⟨op, .word f, w.toNat, hop, h, w.isLt, by rw [Form.instr, BitVec.ofNat_toNat, BitVec.setWidth_eq]⟩

/-- Every constructor is on the map, at the opcode it is encoded with (R84). -/
theorem hasRow (i : Instr) : HasRow i := by
  cases i
  case tax | tay | tsx | txa | txs | tya | aslAcc | lsrAcc | rolAcc | rorAcc | inx | iny | dex | dey
      | rts | pha | pla | php | plp | brk | rti | sec | clc | sei | cli | sed | cld | clv | nop =>
    exact hasRow_bare rfl (opcodeMap_of_rows rfl)
  case ldaAbs | ldaAbsX | ldaAbsY | ldxAbs | ldxAbsY | ldyAbs | ldyAbsX | staAbs | staAbsX | staAbsY
      | stxAbs | styAbs | adcAbs | adcAbsX | adcAbsY | sbcAbs | sbcAbsX | sbcAbsY | andAbs | andAbsX
      | andAbsY | oraAbs | oraAbsX | oraAbsY | eorAbs | eorAbsX | eorAbsY | cmpAbs | cmpAbsX | cmpAbsY
      | cpxAbs | cpyAbs | bitAbs | aslAbs | aslAbsX | lsrAbs | lsrAbsX | rolAbs | rolAbsX | rorAbs
      | rorAbsX | incAbs | incAbsX | decAbs | decAbsX | jmpAbs | jmpInd | jsr =>
    exact hasRow_word rfl (opcodeMap_of_rows rfl)
  all_goals exact hasRow_byte rfl (opcodeMap_of_rows rfl)

/-- A form builds its cell with the operand given, as wide as the cell's mode has it (R84, R87). -/
structure FormReads (form : Form) : Prop where
  mode_mem : form.cell.1.modes.contains form.cell.2 = true
  operandBytes_eq : form.cell.2.operandBytes = form.operandBytes
  raw_instr : ∀ n, n < 256 ^ form.operandBytes → (form.instr n).raw = ⟨form.cell.1, form.cell.2, n⟩

theorem formReads_bare {i : Instr} (hm : i.mnemonic.modes.contains i.mode = true)
    (hk : i.mode.operandBytes = 0) (hr : i.raw.operand = 0) : FormReads (.bare i) where
  mode_mem := hm
  operandBytes_eq := hk
  raw_instr n hn := by
    obtain rfl : n = 0 := Nat.lt_one_iff.mp hn
    rw [← hr]
    rfl

theorem formReads_byte {f : Byte → Instr} (hr : ∀ b, (f b).raw = ⟨(f 0).mnemonic, (f 0).mode, b.toNat⟩)
    (hm : (f 0).mnemonic.modes.contains (f 0).mode = true) (hk : (f 0).mode.operandBytes = 1) :
    FormReads (.byte f) where
  mode_mem := hm
  operandBytes_eq := hk
  raw_instr _ hn := (hr _).trans (congrArg (RawInstr.mk _ _) (Nat.mod_eq_of_lt hn))

theorem formReads_word {f : Word → Instr} (hr : ∀ w, (f w).raw = ⟨(f 0).mnemonic, (f 0).mode, w.toNat⟩)
    (hm : (f 0).mnemonic.modes.contains (f 0).mode = true) (hk : (f 0).mode.operandBytes = 2) :
    FormReads (.word f) where
  mode_mem := hm
  operandBytes_eq := hk
  raw_instr _ hn := (hr _).trans (congrArg (RawInstr.mk _ _) (Nat.mod_eq_of_lt hn))

theorem opcodeRows_read : ∀ p ∈ opcodeRows, FormReads p.2 := by
  have h : List.Forall (fun p : Byte × Form => FormReads p.2) opcodeRows := by
    repeat' first | exact trivial | apply And.intro
    all_goals first | apply formReads_bare | apply formReads_byte | apply formReads_word
    all_goals (intros; rfl)
  exact List.forall_iff_forall_mem.mp h

theorem formReads_of_map {op : Byte} {form : Form} (h : opcodeMap op = some form) : FormReads form :=
  opcodeRows_read _ (mem_of_lookupForm h)

set_option maxRecDepth 3000 in
/-- No cell of the map is filled twice (R84). -/
theorem cells_nodup : (opcodeRows.map fun p => p.2.cell).Nodup := by decide

/-- Every mode a mnemonic has is a cell that is filled (R84). -/
theorem mem_cells_of_mode (m : Mnemonic) :
    ∀ k ∈ m.modes, (m, k) ∈ opcodeRows.map fun p => p.2.cell := by
  cases m <;> decide

/-- A row's instruction is decoded back from its opcode and operand bytes (R80, R87). -/
theorem decode_encode_of_map {op : Byte} {form : Form} (h : opcodeMap op = some form) (n : Nat)
    (rest : List Byte) : decode (encode (form.instr n) ++ rest) = .ok (form.instr n, rest) := by
  have henc := opcodeMap_encodes h
  cases form with
  | bare i =>
    simp only [Form.instr, henc.1, List.cons_append, List.nil_append, decode, h]
  | byte f =>
    simp only [Form.instr, (henc _).1, List.cons_append, List.nil_append, decode, h]
  | word f =>
    simp only [Form.instr, (henc _).1, List.cons_append, List.nil_append, decode, h,
      wordOf_hiByte_loByte]

/-- A row's instruction has as many bytes as it is long (R81, R83). -/
theorem length_encode_of_map {op : Byte} {form : Form} (h : opcodeMap op = some form) (n : Nat) :
    (encode (form.instr n)).length = (form.instr n).length := by
  have henc := opcodeMap_encodes h
  cases form with
  | bare i => simp [Form.instr, henc.1, henc.2]
  | byte f => simp [Form.instr, henc _]
  | word f => simp [Form.instr, henc _]

/-- The reading of an instruction is its row's cell with the row's operand (R84). -/
theorem exists_raw_eq (i : Instr) :
    ∃ op form n, (encode i).head? = some op ∧ opcodeMap op = some form ∧
      n < 256 ^ form.operandBytes ∧ i = form.instr n ∧ i.raw = ⟨form.cell.1, form.cell.2, n⟩ := by
  obtain ⟨op, form, n, hop, h, hn, rfl⟩ := hasRow i
  exact ⟨op, form, n, hop, h, hn, rfl, (formReads_of_map h).raw_instr n hn⟩

end Sys2Proof

namespace Sys2Proof.Claims

open Sys2Proof.Machine

/-- Settles O1: the instruction is what its row builds, and the row's opcode decodes to that row. -/
theorem decodeOfEncodeIsIdentity : Obligations.DecodeOfEncodeIsIdentity := by
  intro i rest
  obtain ⟨op, form, n, -, h, -, rfl⟩ := hasRow i
  exact decode_encode_of_map h n rest

/-- Settles O2: what the decoder reads is a row's form with operand bytes, and the row encodes back. -/
theorem decodedBytesAreTheEncoding : Obligations.DecodedBytesAreTheEncoding := by
  intro bs i rest h
  cases bs with
  | nil => cases h
  | cons op tail =>
    simp only [decode] at h
    split at h
    case h_1 => cases h
    case h_2 j hmap =>
      cases h
      rw [(opcodeMap_encodes hmap).1]
      rfl
    case h_3 f hmap =>
      split at h
      case h_1 b1 tail' =>
        cases h
        rw [(opcodeMap_encodes hmap b1).1]
        rfl
      case h_2 => cases h
    case h_4 f hmap =>
      split at h
      case h_1 b1 b2 tail' =>
        cases h
        rw [(opcodeMap_encodes hmap _).1, loByte_wordOf, hiByte_wordOf]
        rfl
      case h_2 => cases h

/-- Settles O5: the opcode picks the row, and the row fixes the cell, whatever the operand. -/
theorem opcodeAloneFixesModeAndLength : Obligations.OpcodeAloneFixesModeAndLength := by
  refine ⟨fun i => ?length, fun i j hop => ?opcode⟩
  case length =>
    obtain ⟨op, form, n, -, h, -, rfl⟩ := hasRow i
    exact length_encode_of_map h n
  case opcode =>
    obtain ⟨op, form, n, hhead, h, -, -, hraw⟩ := exists_raw_eq i
    obtain ⟨op', form', n', hhead', h', -, -, hraw'⟩ := exists_raw_eq j
    rw [hhead, hhead', Option.some.injEq] at hop
    subst hop
    obtain rfl : form = form' := Option.some.inj (h.symm.trans h')
    simp only [Instr.length, Instr.mnemonic, Instr.mode, hraw, hraw', and_self]

/-- Settles O4: no two rows share a cell, every row's cell is one of the mnemonic's modes, and every mode
of a mnemonic has its row. -/
theorem instructionsAreTheMapEntries : Obligations.InstructionsAreTheMapEntries := by
  refine ⟨fun i j hij => ?injective, fun i => ?wellFormed, fun r hr => ?onto⟩
  case injective =>
    obtain ⟨op, form, n, -, h, -, rfl, hraw⟩ := exists_raw_eq i
    obtain ⟨op', form', n', -, h', -, rfl, hraw'⟩ := exists_raw_eq j
    rw [hraw, hraw', RawInstr.mk.injEq] at hij
    obtain ⟨hm, hk, rfl⟩ := hij
    have hrow : (op, form) = (op', form') :=
      List.inj_on_of_nodup_map cells_nodup (mem_of_lookupForm h) (mem_of_lookupForm h')
        (Prod.ext hm hk)
    rw [(Prod.mk.inj hrow).2]
  case wellFormed =>
    obtain ⟨op, form, n, -, h, hn, rfl, hraw⟩ := exists_raw_eq i
    have hreads := formReads_of_map h
    rw [← hreads.operandBytes_eq] at hn
    simp only [hraw, RawInstr.wellFormed, RawInstr.modeOk, RawInstr.operandOk, hreads.mode_mem, hn,
      decide_true, Bool.and_self]
  case onto =>
    obtain ⟨m, k, n⟩ := r
    simp only [RawInstr.wellFormed, RawInstr.modeOk, RawInstr.operandOk, Bool.and_eq_true,
      List.contains_iff_mem, decide_eq_true_eq] at hr
    obtain ⟨hmem, hn⟩ := hr
    obtain ⟨⟨op, form⟩, hrow, hcell⟩ := List.mem_map.mp (mem_cells_of_mode m k hmem)
    obtain ⟨rfl, rfl⟩ := Prod.mk.inj hcell
    have hreads := opcodeRows_read _ hrow
    exact ⟨form.instr n, hreads.raw_instr n (by rwa [← hreads.operandBytes_eq])⟩

/-- Settles O3: each word is its row's opcode and operand bytes, and 0x02 has no row. -/
theorem writtenWordsDecodeAsTheMapSays : Obligations.WrittenWordsDecodeAsTheMapSays :=
  ⟨rfl, rfl, rfl, rfl, rfl, rfl, rfl, rfl, rfl, rfl, rfl, rfl, rfl, rfl, rfl, rfl⟩

end Sys2Proof.Claims
end

section
/-! PROOFS. What every instruction keeps (R21 to R23, R30, R33, R34, R56): registers and flags outside
their writers, memory outside the stores, the stored B, and the inputs and the counter, which no meaning
reads. -/

namespace Sys2Proof.Machine

/-- The mnemonics that write A (R21); the accumulator forms write it too. -/
def aWriters : List Mnemonic := [.lda, .txa, .tya, .pla, .adc, .sbc, .and, .ora, .eor]

/-- The mnemonics that write X (R22). -/
def xWriters : List Mnemonic := [.ldx, .tax, .tsx, .inx, .dex]

/-- The mnemonics that write Y (R22). -/
def yWriters : List Mnemonic := [.ldy, .tay, .iny, .dey]

/-- The mnemonics that write SP (R23). -/
def spWriters : List Mnemonic := [.txs, .pha, .pla, .php, .plp, .jsr, .rts, .brk, .rti]

/-- The mnemonics that write C (R30). -/
def cWriters : List Mnemonic :=
  [.adc, .sbc, .cmp, .cpx, .cpy, .asl, .lsr, .rol, .ror, .sec, .clc, .plp, .rti]

/-- The mnemonics that write Z and N (R30). -/
def znWriters : List Mnemonic :=
  [.lda, .ldx, .ldy, .tax, .tay, .tsx, .txa, .tya, .pla, .adc, .sbc, .and, .ora, .eor, .cmp, .cpx, .cpy,
    .bit, .asl, .lsr, .rol, .ror, .inc, .dec, .inx, .iny, .dex, .dey, .plp, .rti]

/-- The mnemonics that write I (R30). -/
def iWriters : List Mnemonic := [.sei, .cli, .plp, .rti, .brk]

/-- The mnemonics that write D (R30). -/
def dWriters : List Mnemonic := [.sed, .cld, .plp, .rti]

/-- The mnemonics that write V (R30). -/
def vWriters : List Mnemonic := [.adc, .sbc, .bit, .clv, .plp, .rti]

/-- The registers after an instruction: as before, unless the instruction is among the writers. -/
theorem exec_registers {i : Instr} {s t : State} (h : exec i s = .next t) :
    t.a = (if i.mnemonic ∈ aWriters ∨ i.mode = .accumulator then t.a else s.a) ∧
    t.x = (if i.mnemonic ∈ xWriters then t.x else s.x) ∧
    t.y = (if i.mnemonic ∈ yWriters then t.y else s.y) ∧
    t.sp = (if i.mnemonic ∈ spWriters then t.sp else s.sp) := by
  cases i
  all_goals
    cases h
    exact ⟨rfl, rfl, rfl, rfl⟩

/-- The flags after an instruction: as before, unless the instruction is among the writers. -/
theorem exec_flags {i : Instr} {s t : State} (h : exec i s = .next t) :
    t.flags.c = (if i.mnemonic ∈ cWriters then t.flags.c else s.flags.c) ∧
    t.flags.z = (if i.mnemonic ∈ znWriters then t.flags.z else s.flags.z) ∧
    t.flags.n = (if i.mnemonic ∈ znWriters then t.flags.n else s.flags.n) ∧
    t.flags.i = (if i.mnemonic ∈ iWriters then t.flags.i else s.flags.i) ∧
    t.flags.d = (if i.mnemonic ∈ dWriters then t.flags.d else s.flags.d) ∧
    t.flags.v = (if i.mnemonic ∈ vWriters then t.flags.v else s.flags.v) := by
  cases i
  all_goals
    cases h
    exact ⟨rfl, rfl, rfl, rfl, rfl, rfl⟩

/-- No instruction writes the stored B (R30) or an interrupt input (R33, R34). -/
theorem exec_keeps {i : Instr} {s t : State} (h : exec i s = .next t) :
    t.flags.b = s.flags.b ∧ t.irqLine = s.irqLine ∧ t.nmiPending = s.nmiPending := by
  cases i
  all_goals
    cases h
    exact ⟨rfl, rfl, rfl⟩

/-- None but PHP reads the stored B (R30). -/
theorem exec_ignores_b {i : Instr} {s t : State} (hi : i.mnemonic ≠ .php) (h : exec i s = .next t)
    (v : Bool) : exec i { s with flags := { s.flags with b := v } } =
      .next { t with flags := { t.flags with b := v } } := by
  cases i
  case php => exact absurd rfl hi
  all_goals
    cases h
    rfl

/-- The counter and the interrupt inputs replaced. -/
def State.withInputs (s : State) (cycles : Nat) (irqLine nmiPending : Bool) : State :=
  { s with cycles := cycles, irqLine := irqLine, nmiPending := nmiPending }

theorem next_withInputs_of_eq {r : Result} {t : State} {c c' : Nat} {l p : Bool}
    (h : r = .next (t.withInputs c l p)) (hc : c = c') : r = .next (t.withInputs c' l p) :=
  hc ▸ h

/-- No meaning reads the counter or an interrupt input (R32 to R34). -/
theorem exec_withInputs {i : Instr} {s t : State} (h : exec i s = .next t) (k : Nat) (l p : Bool) :
    exec i (s.withInputs (s.cycles + k) l p) = .next (t.withInputs (t.cycles + k) l p) := by
  cases i
  all_goals
    cases h
    exact next_withInputs_of_eq rfl (Nat.add_right_comm _ _ _)

/-! Where an instruction stores. -/

/-- Memory after an instruction is memory before with one byte written to each of the targets. -/
def StoredTo (targets : List Word) (s t : State) : Prop :=
  ∃ image : List (Word × Byte), image.map Prod.fst = targets ∧ t.mem = s.mem.load image

/-- The mode of a row with a byte operand. -/
theorem memMode_byte {i : Instr} {mode : Byte → MemMode} {b : Byte}
    (h : memMode i = some (mode (BitVec.ofNat 8 b.toNat))) : memMode i = some (mode b) := by
  rw [h, BitVec.ofNat_toNat, BitVec.setWidth_eq]

/-- The mode of a row with a word operand. -/
theorem memMode_word {i : Instr} {mode : Word → MemMode} {w : Word}
    (h : memMode i = some (mode (BitVec.ofNat 16 w.toNat))) : memMode i = some (mode w) := by
  rw [h, BitVec.ofNat_toNat, BitVec.setWidth_eq]

/-- An instruction whose one target is its effective address. -/
theorem storedTo_of_dataAddresses {i : Instr} {s t : State} {m : MemMode} {v : Byte}
    (hi : storeTargets i s = dataAddresses i s) (hm : memMode i = some m)
    (ht : t.mem = s.mem.write (m.ea s) v) : StoredTo (storeTargets i s) s t :=
  ⟨[(m.ea s, v)], by rw [hi, dataAddresses, hm]; rfl, ht⟩

/-- Every instruction stores one byte to each of its targets and none elsewhere (R55, R56). -/
theorem exec_storedTo {i : Instr} {s t : State} (h : exec i s = .next t) :
    StoredTo (storeTargets i s) s t := by
  cases i
  case staZp | staZpX | staIndX | staIndY | stxZp | stxZpY | styZp | styZpX | aslZp | aslZpX | lsrZp
      | lsrZpX | rolZp | rolZpX | rorZp | rorZpX | incZp | incZpX | decZp | decZpX =>
    cases h
    exact storedTo_of_dataAddresses rfl (memMode_byte rfl) rfl
  case staAbs | staAbsX | staAbsY | stxAbs | styAbs | aslAbs | aslAbsX | lsrAbs | lsrAbsX | rolAbs
      | rolAbsX | rorAbs | rorAbsX | incAbs | incAbsX | decAbs | decAbsX =>
    cases h
    exact storedTo_of_dataAddresses rfl (memMode_word rfl) rfl
  case pha | php =>
    cases h
    exact ⟨[(stackAddr s.sp, _)], rfl, rfl⟩
  case jsr =>
    cases h
    exact ⟨[(stackAddr s.sp, _), (stackAddr (s.sp - 1#8), _)], rfl, rfl⟩
  case brk =>
    cases h
    exact ⟨[(stackAddr s.sp, _), (stackAddr (s.sp - 1#8), _), (stackAddr (s.sp - 2#8), _)], rfl,
      enterHandler_mem s (s.pc + 1#16) true irqVector⟩
  all_goals
    cases h
    exact ⟨[], rfl, rfl⟩

theorem StoredTo.inv {targets : List Word} {s t : State} (h : StoredTo targets s t) (hs : s.Inv) :
    t.Inv := by
  obtain ⟨image, -, hmem⟩ := h
  rw [State.Inv, hmem]
  exact Memory.wf_load hs image

end Sys2Proof.Machine

namespace Sys2Proof.Claims

open Sys2Proof.Machine

/-- Settles O54: outside the writers the register is the old one. -/
theorem registersAreWrittenOnlyByTheirWriters : Obligations.RegistersAreWrittenOnlyByTheirWriters := by
  intro i s t h
  obtain ⟨ha, hx, hy, hsp⟩ := exec_registers h
  exact ⟨fun hi hm => ha.trans (if_neg (not_or.mpr ⟨hi, hm⟩)), fun hi => hx.trans (if_neg hi),
    fun hi => hy.trans (if_neg hi), fun hi => hsp.trans (if_neg hi)⟩

/-- Settles O55: outside the writers the flag is the old one. -/
theorem flagsAreWrittenOnlyByTheirWriters : Obligations.FlagsAreWrittenOnlyByTheirWriters := by
  intro i s t h
  obtain ⟨hc, hz, hn, hi, hd, hv⟩ := exec_flags h
  exact ⟨fun hm => hc.trans (if_neg hm), fun hm => ⟨hz.trans (if_neg hm), hn.trans (if_neg hm)⟩,
    fun hm => hi.trans (if_neg hm), fun hm => hd.trans (if_neg hm), fun hm => hv.trans (if_neg hm)⟩

/-- Settles O14: of all the meanings only PHP's packs the stored B, and RTI and PLP keep it. -/
theorem storedBreakFlagIsWrittenByNoInstruction :
    Obligations.StoredBreakFlagIsWrittenByNoInstruction := fun _ _ _ v h =>
  ⟨(exec_keeps h).1, fun hi => exec_ignores_b hi h v⟩

/-- Settles O56: an image leaves every byte it does not name. -/
theorem memoryChangesOnlyWhereInstructionsStore :
    Obligations.MemoryChangesOnlyWhereInstructionsStore := by
  intro i s t h a ha
  obtain ⟨image, himage, hmem⟩ := exec_storedTo h
  rw [hmem]
  exact unchangedOutside_load s image a (himage ▸ ha)

end Sys2Proof.Claims
end

section
/-! PROOFS. The step (R86, R101 to R105, R260 to R267): the cycles of an instruction, which bytes are
undefined, what an interrupt, an instruction and a fault leave, and what no step reads or writes. -/

namespace Sys2Proof.Machine

/-! The cycles of an instruction. -/

theorem pageCross_of_memMode {i : Instr} {s : State} {m : MemMode} (h : memMode i = some m) :
    pageCross i s = (m.px s).toNat := by
  rw [pageCross, h]

/-- The table's row for the opcode an instruction is encoded with, as a literal. -/
theorem tableCycles_of_head {i : Instr} {op : Byte} {row : Nat × Bool}
    (hop : (encode i).head? = some op)
    (hrow : lookupCycles op (cycleRows.getD (op.toNat / 16) []) = row) : tableCycles i = row :=
  (tableCycles_of_opcode (by rw [List.headD_eq_head?_getD, hop]; rfl)).trans hrow

theorem cycles_of_plain_row {i : Instr} {s t : State} {op : Byte} {k : Nat}
    (hop : (encode i).head? = some op)
    (hrow : lookupCycles op (cycleRows.getD (op.toNat / 16) []) = (k, false))
    (hb : branchExtra i s = 0) (ht : t.cycles = s.cycles + k) :
    t.cycles = s.cycles + totalCycles i s := by
  rw [ht, totalCycles_plain (tableCycles_of_head hop hrow) hb]

theorem cycles_of_penalty_row {i : Instr} {s t : State} {op : Byte} {k : Nat} {m : MemMode}
    (hop : (encode i).head? = some op)
    (hrow : lookupCycles op (cycleRows.getD (op.toNat / 16) []) = (k, true))
    (hb : branchExtra i s = 0) (hm : memMode i = some m)
    (ht : t.cycles = s.cycles + (k + (m.px s).toNat)) : t.cycles = s.cycles + totalCycles i s := by
  rw [ht, totalCycles_penalty (tableCycles_of_head hop hrow) hb (pageCross_of_memMode hm)]

theorem cycles_of_branch_row {i : Instr} {s t : State} {op d : Byte} {taken : Bool}
    (hop : (encode i).head? = some op)
    (hrow : lookupCycles op (cycleRows.getD (op.toNat / 16) []) = (2, false))
    (hcond : branchCondition i.mnemonic s.flags = some taken) (hd : i.raw.operand = d.toNat)
    (ht : t.cycles = s.cycles + branchCycles taken s.pc (branchTarget s.pc d)) :
    t.cycles = s.cycles + totalCycles i s := by
  have hd' : BitVec.ofNat 8 i.raw.operand = d := by rw [hd, BitVec.ofNat_toNat, BitVec.setWidth_eq]
  rw [ht, totalCycles_branch (tableCycles_of_head hop hrow) hcond hd']

/-- Every instruction adds its total by the table (R103, R104). -/
theorem exec_cycles {i : Instr} {s t : State} (h : exec i s = .next t) :
    t.cycles = s.cycles + totalCycles i s := by
  cases i
  case ldaAbsX | ldaAbsY | ldxAbsY | ldyAbsX | adcAbsX | adcAbsY | sbcAbsX | sbcAbsY | andAbsX | andAbsY
      | oraAbsX | oraAbsY | eorAbsX | eorAbsY | cmpAbsX | cmpAbsY =>
    cases h
    exact cycles_of_penalty_row rfl rfl rfl (memMode_word rfl) rfl
  case ldaIndY | adcIndY | sbcIndY | andIndY | oraIndY | eorIndY | cmpIndY =>
    cases h
    exact cycles_of_penalty_row rfl rfl rfl (memMode_byte rfl) rfl
  case bcc | bcs | beq | bne | bmi | bpl | bvc | bvs =>
    cases h
    exact cycles_of_branch_row rfl rfl rfl rfl rfl
  all_goals
    cases h
    exact cycles_of_plain_row rfl rfl rfl rfl

theorem tableCycles_pos_of_head {i : Instr} {op : Byte} (hop : (encode i).head? = some op)
    (hrow : 0 < (lookupCycles op (cycleRows.getD (op.toNat / 16) [])).1) : 0 < (tableCycles i).1 := by
  rwa [tableCycles_of_head hop rfl]

/-- No instruction is free (R104). -/
theorem totalCycles_pos (i : Instr) (s : State) : 0 < totalCycles i s := by
  have hrow : 0 < (tableCycles i).1 := by
    cases i
    all_goals exact tableCycles_pos_of_head rfl (by decide)
  rw [totalCycles]
  omega

/-! Undefined bytes. -/

theorem lookupForm_eq_none_iff {op : Byte} {rows : List (Byte × Form)} :
    lookupForm op rows = none ↔ op ∉ rows.map Prod.fst := by
  induction rows with
  | nil => simp [lookupForm]
  | cons p rest ih =>
    obtain ⟨k, form⟩ := p
    rw [lookupForm]
    split
    case isTrue hk => simp [hk]
    case isFalse hk => simp [ih, Ne.symm hk]

theorem mem_iff_any_toNat (op : Byte) (ops : List Byte) :
    op ∈ ops ↔ (ops.any fun k => Nat.beq k.toNat op.toNat) = true := by
  simp [List.any_eq_true, BitVec.toNat_inj]

/-- A byte is an opcode of the map or one of R86, and not both. Bytes are compared as numbers, which is
cheap to evaluate. -/
theorem opcodes_partition : ∀ op : Byte,
    ((opcodeRows.map Prod.fst).any fun k => Nat.beq k.toNat op.toNat) =
      !(undefinedOpcodes.any fun k => Nat.beq k.toNat op.toNat) := by
  decide

/-- The map has no form for exactly the bytes of R86. -/
theorem opcodeMap_eq_none_iff (op : Byte) : opcodeMap op = none ↔ op ∈ undefinedOpcodes := by
  rw [opcodeMap, lookupForm_eq_none_iff, mem_iff_any_toNat, mem_iff_any_toNat, opcodes_partition,
    Bool.not_eq_true', Bool.not_eq_false]

/-- A step faults exactly when no interrupt is taken and the opcode is one of R86 (R260, R261). -/
theorem step_fault_iff {s : State} {f : Fault} :
    step s = .fault f ↔ s.Undisturbed ∧ s.mem.read s.pc ∈ undefinedOpcodes ∧
      f = undefinedFault s (s.mem.read s.pc) := by
  rw [State.Undisturbed, ← pendingInterrupt_none_iff, ← opcodeMap_eq_none_iff, ← fetch_error_iff, step]
  cases hp : s.pendingInterrupt with
  | some src => simp
  | none =>
    cases hf : s.fetch with
    | error g => simp
    | ok p =>
      obtain ⟨t, ht⟩ := exec_answers p.1 p.2
      simp [ht]

/-- No step is refused. -/
theorem step_ne_refused (s : State) (r : Refusal) : step s ≠ .refused r := by
  rw [step]
  cases hp : s.pendingInterrupt with
  | some src => simp
  | none =>
    cases hf : s.fetch with
    | error f => simp
    | ok p =>
      obtain ⟨t, ht⟩ := exec_answers p.1 p.2
      simp [ht]

/-! What a step does when it answers a next state. -/

/-- A step takes an interrupt when it is disturbed; otherwise it runs an instruction from the state with
PC moved past its bytes (R101, R102). -/
theorem step_next {s t : State} (h : step s = .next t) :
    (¬ s.Undisturbed ∧ ∃ src, s.pendingInterrupt = some src ∧ t = s.takeInterrupt src) ∨
    (s.Undisturbed ∧ ∃ i pc, s.fetch = .ok (i, s.setPc pc) ∧ exec i (s.setPc pc) = .next t) := by
  rcases step_next_cases h with ⟨src, hp, ht⟩ | ⟨hp, i, s', hf, hx⟩
  · have hne : s.pendingInterrupt ≠ none := by simp [hp]
    exact .inl ⟨(pendingInterrupt_none_iff s).not.mp hne, src, hp, ht⟩
  · obtain rfl := fetch_ok hf
    exact .inr ⟨(pendingInterrupt_none_iff s).mp hp, i, _, hf, hx⟩

theorem takeInterrupt_cycles (s : State) (src : Interrupt) :
    (s.takeInterrupt src).cycles = s.cycles + 7 := by
  cases src <;> simp [State.takeInterrupt]

theorem takeInterrupt_irqLine (s : State) (src : Interrupt) :
    (s.takeInterrupt src).irqLine = s.irqLine := by
  cases src <;> simp [State.takeInterrupt]

/-- An interrupt taken leaves the NMI latch clear: NMI clears it, and IRQ is taken only when it is clear
(R264, R267). -/
theorem takeInterrupt_nmiPending {s : State} {src : Interrupt} (h : s.pendingInterrupt = some src) :
    (s.takeInterrupt src).nmiPending = false := by
  cases src with
  | nmi => simp [State.takeInterrupt]
  | irq =>
    rw [State.takeInterrupt, enterHandler_nmiPending]
    rw [State.pendingInterrupt] at h
    split at h
    · cases h
    · exact Bool.eq_false_iff.mpr ‹_›

theorem enterHandler_inv {s : State} (h : s.Inv) (ret : Word) (b4 : Bool) (vector : Word) :
    (s.enterHandler ret b4 vector).Inv := by
  rw [State.Inv, enterHandler_mem]
  exact Memory.wf_write (Memory.wf_write (Memory.wf_write h _ _) _ _) _ _

theorem takeInterrupt_inv {s : State} (h : s.Inv) (src : Interrupt) : (s.takeInterrupt src).Inv := by
  cases src with
  | nmi => exact enterHandler_inv (s := s.setNmiPending false) h _ _ _
  | irq => exact enterHandler_inv h _ _ _

/-- A step never writes `irq_line` and leaves the latch clear (R33, R34, R267). -/
theorem step_inputs {s t : State} (h : step s = .next t) :
    t.irqLine = s.irqLine ∧ t.nmiPending = false := by
  rcases step_next h with ⟨-, src, hp, rfl⟩ | ⟨⟨hn, -⟩, i, pc, -, hx⟩
  · exact ⟨takeInterrupt_irqLine s src, takeInterrupt_nmiPending hp⟩
  · obtain ⟨-, hirq, hnmi⟩ := exec_keeps hx
    exact ⟨hirq, hnmi.trans hn⟩

/-! What no step reads. -/

/-- A fetch reads memory and PC only. -/
theorem fetch_withInputs {s s' : State} {i : Instr} (h : s.fetch = .ok (i, s')) (c : Nat) (l p : Bool) :
    (s.withInputs c l p).fetch = .ok (i, s'.withInputs c l p) := by
  have hread : (s.withInputs c l p).read (s.withInputs c l p).pc = s.read s.pc := rfl
  simp only [State.fetch, State.fetch8, State.fetch16] at h
  simp only [State.fetch, State.fetch8, State.fetch16, hread]
  split at h
  case h_1 => cases h
  case h_2 | h_3 | h_4 =>
    cases h
    rfl

/-- An undisturbed step does the same whatever the counter and the level of the line, if that level too
leaves it undisturbed (R32, R33, R263). -/
theorem step_withInputs {s t : State} (hs : s.Undisturbed) (h : step s = .next t) {k : Nat} {l : Bool}
    (hu : (s.withInputs (s.cycles + k) l s.nmiPending).Undisturbed) :
    step (s.withInputs (s.cycles + k) l s.nmiPending) =
      .next (t.withInputs (t.cycles + k) l t.nmiPending) := by
  rcases step_next h with ⟨hn, -⟩ | ⟨-, i, pc, hf, hx⟩
  · exact absurd hs hn
  · rw [step_of_fetch ((pendingInterrupt_none_iff _).mpr hu) (fetch_withInputs hf _ _ _),
      (step_inputs h).2, hs.1]
    exact exec_withInputs hx k l false

/-- A step with an interrupt pending takes it (R101). -/
theorem step_of_interrupt {s : State} {src : Interrupt} (h : s.pendingInterrupt = some src) :
    step s = .next (s.takeInterrupt src) := by
  simp only [step, h]

/-- Taking an interrupt reads no counter. -/
theorem takeInterrupt_ahead (s : State) (src : Interrupt) (k : Nat) :
    ({ s with cycles := s.cycles + k } : State).takeInterrupt src =
      { s.takeInterrupt src with cycles := (s.takeInterrupt src).cycles + k } := by
  rw [takeInterrupt_cycles, Nat.add_right_comm]
  cases src
  all_goals rfl

end Sys2Proof.Machine

namespace Sys2Proof.Claims

open Sys2Proof.Machine

/-- Settles O15: an instruction stores an image, an interrupt pushes three bytes, and a fault stores
nothing. -/
theorem stepKeepsMemoryCanonical : Obligations.StepKeepsMemoryCanonical := by
  intro s hs
  refine ⟨fun t h => ?next, fun f h => ?fault⟩
  case next =>
    rcases step_next h with ⟨-, src, -, rfl⟩ | ⟨-, i, pc, -, hx⟩
    · exact takeInterrupt_inv hs src
    · exact (exec_storedTo hx).inv hs
  case fault =>
    obtain ⟨-, -, rfl⟩ := step_fault_iff.mp h
    exact hs

/-- Settles O7: the byte has no form, so the fetch faults. -/
theorem undefinedOpcodeFaults : Obligations.UndefinedOpcodeFaults := by
  intro s op hu hop hread
  subst hread
  exact step_fault_iff.mpr ⟨hu, hop, rfl⟩

/-- Settles O8: every instruction answers a next state, so only the fetch can stop a step. -/
theorem undefinedOpcodeIsTheOnlyStop : Obligations.UndefinedOpcodeIsTheOnlyStop := by
  intro s
  refine ⟨step_ne_refused s, fun f h => ?_⟩
  obtain ⟨hu, hop, rfl⟩ := step_fault_iff.mp h
  exact ⟨hu, hop, rfl, rfl⟩

/-- Settles O10: with I set the step is undisturbed at either level. -/
theorem maskedIrqHasNoEffect : Obligations.MaskedIrqHasNoEffect := by
  intro s t level hn hi h
  exact step_withInputs ⟨hn, .inr hi⟩ h (k := 0) (l := level) ⟨hn, .inr hi⟩

/-- Settles O12: an instruction adds its row's total, an interrupt 7, and the fault the opcode's fetch. -/
theorem cycleTotalsFollowTheTable : Obligations.CycleTotalsFollowTheTable := by
  refine ⟨fun i s => ?exec, fun s t hd h => ?interrupt, fun s f h => ?fault⟩
  case exec =>
    obtain ⟨t, ht⟩ := exec_answers i s
    exact ⟨t, ht, exec_cycles ht⟩
  case interrupt =>
    rcases step_next h with ⟨-, src, -, rfl⟩ | ⟨hu, -⟩
    · exact takeInterrupt_cycles s src
    · exact absurd hu hd
  case fault =>
    obtain ⟨-, -, rfl⟩ := step_fault_iff.mp h
    rfl

/-- Settles O13: an interrupt entry adds 7 to whatever the counter is, and an instruction its total. -/
theorem cyclesGrowAndAreNeverRead : Obligations.CyclesGrowAndAreNeverRead := by
  intro s t ahead h
  rcases step_next h with ⟨-, src, hp, rfl⟩ | ⟨hu, i, pc, -, hx⟩
  · refine ⟨by rw [takeInterrupt_cycles]; omega, ?_⟩
    rw [← takeInterrupt_ahead]
    exact step_of_interrupt hp
  · have hpos := totalCycles_pos i (s.setPc pc)
    refine ⟨by rw [exec_cycles hx, State.setPc_cycles]; omega, ?_⟩
    have ht : t.withInputs (t.cycles + ahead) s.irqLine t.nmiPending =
        { t with cycles := t.cycles + ahead } := by
      rw [← (step_inputs h).1]
      rfl
    rw [← ht]
    exact step_withInputs hu h hu

/-- Settles O22: no instruction writes an input, and an interrupt taken leaves the latch clear. -/
theorem interruptInputsBelongToTheHost : Obligations.InterruptInputsBelongToTheHost := fun _ =>
  ⟨fun _ h => step_inputs h, rfl, rfl, fun _ => rfl, rfl⟩

/-- Settles O6: the bytes at PC are fetched as the instruction they decode to. -/
theorem stepRunsTheDecodedInstruction : Obligations.StepRunsTheDecodedInstruction :=
  fun _ _ _ hu hd => step_of_decode hu hd

/-- Settles O16: every host operation on memory writes, loads or zero-fills it. -/
theorem hostOperationsKeepMemoryCanonical : Obligations.HostOperationsKeepMemoryCanonical := by
  refine ⟨fun act s hs => ?act, fun d r s h => ?launch⟩
  case act =>
    cases act with
    | load image => exact Memory.wf_load hs image
    | memoryReset => exact Memory.wf_zero
    | pokeMemory a v => exact Memory.wf_write hs a v
    | pokeRegister r v => cases r <;> exact hs
    | reset | setIrq b | requestNmi | pokePc v | pokeFlag k v => exact hs
  case launch =>
    rw [launch] at h
    split at h
    · cases h
      exact Memory.wf_place (Memory.wf_load Memory.wf_zero _) _ _
    · cases h

/-- Settles O17: the reset state's memory is zero-filled. -/
theorem resetStateHasCanonicalMemory : Obligations.ResetStateHasCanonicalMemory := Memory.wf_zero

end Sys2Proof.Claims
end

section
/-! PROOFS. The ALU functions in arithmetic (R160 to R162, R191 to R194): binary and decimal sums and
differences, shifts and rotates. -/

namespace Sys2Proof.Machine

/-! Bits of a byte. -/

theorem bit_xor (x y : Byte) (k : Nat) : bit (x ^^^ y) k = (bit x k ^^ bit y k) := BitVec.getLsbD_xor

theorem bit_and (x y : Byte) (k : Nat) : bit (x &&& y) k = (bit x k && bit y k) := BitVec.getLsbD_and

/-- A mask of bit 7 tests it (R160, R165). -/
theorem and_mask_ne_zero (x : Byte) : decide (x &&& 0x80#8 ≠ 0#8) = bit x 7 := by
  have hmask : x &&& 0x80#8 = BitVec.twoPow 8 7 &&& x := BitVec.and_comm _ _
  rw [hmask, BitVec.twoPow_and, bit]
  cases x.getLsbD 7 <;> rfl

theorem toNat_not_byte (x : Byte) : (~~~x).toNat = 255 - x.toNat := BitVec.toNat_not

theorem bit_not_seven (x : Byte) : bit (~~~x) 7 = !bit x 7 := by
  have hx := x.isLt
  rw [bit_seven, bit_seven, toNat_not_byte, Bool.eq_iff_iff]
  simp only [decide_eq_true_eq, Bool.not_eq_true', decide_eq_false_iff_not]
  omega

/-! Binary addition and subtraction (R160). -/

theorem addBin_value (a b : Byte) (c : Bool) :
    (addBin a b c).value.toNat = (a.toNat + b.toNat + c.toNat) % 256 := BitVec.toNat_ofNat _ _

theorem addBin_z (a b : Byte) (c : Bool) :
    (addBin a b c).z = decide ((addBin a b c).value.toNat = 0) := by
  have hz : (addBin a b c).value = 0#8 ↔ (addBin a b c).value.toNat = 0 := BitVec.toNat_inj.symm
  rw [← decide_eq_decide.mpr hz]
  rfl

theorem addBin_n (a b : Byte) (c : Bool) :
    (addBin a b c).n = decide (128 ≤ (addBin a b c).value.toNat) :=
  bit_seven _

/-- V of a binary sum, from the signs of the operands and of the result. -/
theorem addBin_v_eq_signs (a b : Byte) (c : Bool) :
    (addBin a b c).v =
      ((bit a 7 ^^ bit (addBin a b c).value 7) && (bit b 7 ^^ bit (addBin a b c).value 7)) := by
  rw [← bit_xor, ← bit_xor, ← bit_and]
  rfl

/-- The complement of the operand makes the sum a difference less the borrow (R165). -/
theorem addBin_not_value (a b : Byte) (c : Bool) :
    ((addBin a (~~~b) c).value.toNat : Int) = ((a.toNat : Int) - b.toNat + c.toNat - 1) % 256 := by
  have hb := b.isLt
  rw [addBin_value, toNat_not_byte]
  omega

theorem addBin_not_c (a b : Byte) (c : Bool) :
    (addBin a (~~~b) c).c = decide (0 ≤ (a.toNat : Int) - b.toNat + c.toNat - 1) := by
  have hb := b.isLt
  simp only [addBin, toNat_not_byte, decide_eq_decide]
  omega

/-! Decimal addition, digit by digit (R161). -/

/-- A digit sum of ten or more corrected by six. -/
def corrected (digit : Nat) : Nat := if 10 ≤ digit then digit + 6 else digit

/-- The sum of the low digits and the carry. -/
def lowSum (a b : Byte) (c : Bool) : Nat := a.toNat % 16 + b.toNat % 16 + c.toNat

/-- The sum of the high digits and the carry of the low ones. -/
def highSum (a b : Byte) (c : Bool) : Nat :=
  a.toNat / 16 + b.toNat / 16 + (if 10 ≤ lowSum a b c then 1 else 0)

theorem corrected_cases (d : Nat) : 10 ≤ d ∧ corrected d = d + 6 ∨ d < 10 ∧ corrected d = d := by
  rw [corrected]
  split <;> omega

theorem highSum_cases (a b : Byte) (c : Bool) :
    10 ≤ lowSum a b c ∧ highSum a b c = a.toNat / 16 + b.toNat / 16 + 1 ∨
    lowSum a b c < 10 ∧ highSum a b c = a.toNat / 16 + b.toNat / 16 := by
  rw [highSum]
  split <;> omega

/-- Before the high correction the sum is the high digit sum over the corrected low digit. -/
theorem addDecMid_eq (a b : Byte) (c : Bool) :
    addDecMid a b c = 16 * highSum a b c + corrected (lowSum a b c) % 16 := by
  have hlow : addDecLow a b c =
      if 10 ≤ lowSum a b c then (lowSum a b c + 6) % 16 + 16 else lowSum a b c := rfl
  have hhigh := highSum_cases a b c
  have hcor := corrected_cases (lowSum a b c)
  rw [addDecMid, hlow]
  split <;> omega

/-- After it both digits are corrected. -/
theorem addDecTop_eq (a b : Byte) (c : Bool) :
    addDecTop a b c = 16 * corrected (highSum a b c) + corrected (lowSum a b c) % 16 := by
  have htop : addDecTop a b c =
      if 160 ≤ addDecMid a b c then addDecMid a b c + 96 else addDecMid a b c := rfl
  have hcor := corrected_cases (highSum a b c)
  rw [htop, addDecMid_eq]
  split <;> omega

theorem addDec_value (a b : Byte) (c : Bool) :
    (addDec a b c).value.toNat =
      corrected (highSum a b c) % 16 * 16 + corrected (lowSum a b c) % 16 := by
  have h : (addDec a b c).value.toNat = addDecTop a b c % 256 := BitVec.toNat_ofNat _ _
  rw [h, addDecTop_eq]
  omega

theorem addDec_c (a b : Byte) (c : Bool) : (addDec a b c).c = decide (10 ≤ highSum a b c) := by
  have hcor := corrected_cases (highSum a b c)
  simp only [addDec, addDecTop_eq, decide_eq_decide]
  omega

theorem addDec_n (a b : Byte) (c : Bool) : (addDec a b c).n = decide (8 ≤ highSum a b c % 16) := by
  simp only [addDec, bit_seven, addDecMid_eq, BitVec.toNat_ofNat, decide_eq_decide]
  omega

theorem bit_seven_eq_high (x : Byte) : bit x 7 = decide (8 ≤ x.toNat / 16) := by
  rw [bit_seven, decide_eq_decide]
  omega

theorem addDec_v (a b : Byte) (c : Bool) :
    (addDec a b c).v = (decide (8 ≤ a.toNat / 16) == decide (8 ≤ b.toNat / 16)
      && !(decide (8 ≤ a.toNat / 16) == decide (8 ≤ highSum a b c % 16))) := by
  have hv : (addDec a b c).v = ((bit a 7 ^^ (addDec a b c).n) && !(bit a 7 ^^ bit b 7)) := by
    rw [← bit_xor a b]
    exact congrArg (· && !bit (a ^^^ b) 7) (bit_xor _ _ _)
  rw [hv, ← bit_seven_eq_high, ← bit_seven_eq_high, ← addDec_n]
  cases bit a 7 <;> cases bit b 7 <;> cases (addDec a b c).n <;> rfl

/-! Decimal subtraction, digit by digit (R162). -/

/-- A digit difference below zero corrected by six. -/
def borrowed (digit : Int) : Int := if digit < 0 then digit - 6 else digit

/-- The difference of the low digits less the borrow. -/
def lowDiff (a b : Byte) (c : Bool) : Int := (a.toNat % 16 : Nat) - (b.toNat % 16 : Nat) + c.toNat - 1

/-- The difference of the high digits less the borrow of the low ones. -/
def highDiff (a b : Byte) (c : Bool) : Int :=
  (a.toNat / 16 : Nat) - (b.toNat / 16 : Nat) - (if lowDiff a b c < 0 then 1 else 0)

theorem borrowed_cases (d : Int) : d < 0 ∧ borrowed d = d - 6 ∨ 0 ≤ d ∧ borrowed d = d := by
  rw [borrowed]
  split <;> omega

theorem highDiff_cases (a b : Byte) (c : Bool) :
    lowDiff a b c < 0 ∧ highDiff a b c = (a.toNat / 16 : Nat) - (b.toNat / 16 : Nat) - 1 ∨
    0 ≤ lowDiff a b c ∧ highDiff a b c = (a.toNat / 16 : Nat) - (b.toNat / 16 : Nat) := by
  rw [highDiff]
  split <;> omega

/-- The high digit difference over the corrected low digit, with its own correction. -/
theorem subDecTop_eq (a b : Byte) (c : Bool) :
    subDecTop a b c = 16 * highDiff a b c + borrowed (lowDiff a b c) % 16
      - (if highDiff a b c < 0 then 96 else 0) := by
  have hlow : subDecLow a b c =
      if lowDiff a b c < 0 then (lowDiff a b c - 6) % 16 - 16 else lowDiff a b c := rfl
  have hdef : lowDiff a b c = (a.toNat % 16 : Nat) - (b.toNat % 16 : Nat) + c.toNat - 1 := rfl
  have hc : c.toNat ≤ 1 := Bool.toNat_le c
  have hhigh := highDiff_cases a b c
  have hbor := borrowed_cases (lowDiff a b c)
  simp only [subDecTop, hlow]
  split <;> split <;> split <;> omega

theorem subDec_value (a b : Byte) (c : Bool) :
    ((subDec a b c).value.toNat : Int) =
      borrowed (highDiff a b c) % 16 * 16 + borrowed (lowDiff a b c) % 16 := by
  have h : (subDec a b c).value.toNat = (subDecTop a b c % 256).toNat := BitVec.toNat_ofInt _
  have hbor := borrowed_cases (highDiff a b c)
  rw [h, subDecTop_eq]
  split <;> omega

/-! Shifts and rotates (R191 to R194). -/

theorem toNat_aslByte (v : Byte) (c : Bool) : (aslByte v c).value.toNat = 2 * v.toNat % 256 := by
  rw [aslByte, BitVec.toNat_shiftLeft, Nat.shiftLeft_eq]
  omega

theorem toNat_lsrByte (v : Byte) (c : Bool) : (lsrByte v c).value.toNat = v.toNat / 2 := by
  rw [lsrByte, BitVec.toNat_ushiftRight, Nat.shiftRight_eq_div_pow, Nat.pow_one]

/-- ROL adds the old carry to twice the byte (R193). -/
theorem toNat_rolByte (v : Byte) (c : Bool) :
    (rolByte v c).value.toNat = (2 * v.toNat + c.toNat) % 256 := by
  have hv : (v <<< 1).toNat = (v.toNat % 128) <<< 1 := by
    rw [BitVec.toNat_shiftLeft, Nat.shiftLeft_eq, Nat.shiftLeft_eq]
    omega
  have hc : (BitVec.ofNat 8 c.toNat).toNat = c.toNat := by cases c <;> rfl
  have hlt : c.toNat < 2 ^ 1 := Bool.toNat_lt c
  rw [rolByte, BitVec.toNat_or, hv, hc, ← Nat.shiftLeft_add_eq_or_of_lt hlt, Nat.shiftLeft_eq]
  omega

/-- ROR puts the old carry at bit 7 (R194). -/
theorem toNat_rorByte (v : Byte) (c : Bool) :
    (rorByte v c).value.toNat = v.toNat / 2 + 128 * c.toNat := by
  have hv := v.isLt
  have hc : (BitVec.ofNat 8 c.toNat <<< 7).toNat = c.toNat <<< 7 := by cases c <;> rfl
  have hlt : v.toNat / 2 < 2 ^ 7 := by omega
  rw [rorByte, BitVec.toNat_or, hc, BitVec.toNat_ushiftRight, Nat.or_comm, Nat.shiftRight_eq_div_pow,
    Nat.pow_one, ← Nat.shiftLeft_add_eq_or_of_lt hlt, Nat.shiftLeft_eq]
  omega

theorem bit_zero (v : Byte) : bit v 0 = decide (v.toNat % 2 = 1) := by
  rw [bit_eq_decide_div_mod, Nat.pow_zero, Nat.div_one]

end Sys2Proof.Machine

namespace Sys2Proof.Claims

open Sys2Proof.Machine

/-- V of a binary sum says that the signed sum leaves -128 to 127 (R160). -/
theorem addBin_v (a b : Byte) (c : Bool) :
    (addBin a b c).v =
      decide (signed a + signed b + c.toNat < -128 ∨ 127 < signed a + signed b + c.toNat) := by
  have ha := a.isLt
  have hb := b.isLt
  have hc : c.toNat ≤ 1 := Bool.toNat_le c
  rw [addBin_v_eq_signs, Bool.eq_iff_iff]
  simp only [bit_seven, addBin_value, signed]
  by_cases h1 : 128 ≤ a.toNat <;> by_cases h2 : 128 ≤ b.toNat <;> simp [h1, h2] <;> omega

theorem signed_not (b : Byte) : signed (~~~b) = -1 - signed b := by
  have hb := b.isLt
  simp only [signed, toNat_not_byte]
  split <;> split <;> omega

/-- Settles O26: on valid operands the digit sums are at most 19, so a correction subtracts ten and
carries. -/
theorem decimalAddIsDigitwise : Obligations.DecimalAddIsDigitwise := by
  intro a b c
  refine ⟨addDec_value a b c, addDec_c a b c, addDec_n a b c, addDec_v a b c, rfl, fun ha hb => ?_⟩
  obtain ⟨ha1, ha0⟩ := ha
  obtain ⟨hb1, hb0⟩ := hb
  have hc : c.toNat ≤ 1 := Bool.toNat_le c
  have hlow : lowSum a b c = a.toNat % 16 + b.toNat % 16 + c.toNat := rfl
  have hhigh := highSum_cases a b c
  have hl : 10 ≤ lowSum a b c ∧ corrected (lowSum a b c) % 16 + 10 = lowSum a b c ∨
      lowSum a b c < 10 ∧ corrected (lowSum a b c) % 16 = lowSum a b c := by
    have := corrected_cases (lowSum a b c)
    omega
  have hh : 10 ≤ highSum a b c ∧ corrected (highSum a b c) % 16 + 10 = highSum a b c ∨
      highSum a b c < 10 ∧ corrected (highSum a b c) % 16 = highSum a b c := by
    have := corrected_cases (highSum a b c)
    omega
  have hvalue : decimalValue (addDec a b c).value =
      corrected (highSum a b c) % 16 * 10 + corrected (lowSum a b c) % 16 := by
    rw [decimalValue, addDec_value]
    omega
  rw [addDec_c, decide_eq_decide, hvalue]
  simp only [decimalValue]
  omega

/-- Settles O27: on valid operands the digit differences are at least -10, so a correction adds ten and
borrows. -/
theorem decimalSubtractIsDigitwise : Obligations.DecimalSubtractIsDigitwise := by
  intro a b c
  have hc : (subDec a b c).c = decide (0 ≤ (a.toNat : Int) - b.toNat + c.toNat - 1) :=
    addBin_not_c a b c
  have hz : (subDec a b c).z = decide (((a.toNat : Int) - b.toNat + c.toNat - 1) % 256 = 0) := by
    refine (addBin_z a (~~~b) c).trans (decide_eq_decide.mpr ?_)
    rw [← addBin_not_value]
    omega
  have hn : (subDec a b c).n = decide (128 ≤ ((a.toNat : Int) - b.toNat + c.toNat - 1) % 256) := by
    refine (addBin_n a (~~~b) c).trans (decide_eq_decide.mpr ?_)
    rw [← addBin_not_value]
    omega
  have hv : (subDec a b c).v = decide (signed a - signed b + c.toNat - 1 < -128
      ∨ 127 < signed a - signed b + c.toNat - 1) := by
    refine (addBin_v a (~~~b) c).trans (decide_eq_decide.mpr ?_)
    rw [signed_not]
    omega
  refine ⟨subDec_value a b c, hc, hz, hn, hv, fun ha hb => ?_⟩
  obtain ⟨ha1, ha0⟩ := ha
  obtain ⟨hb1, hb0⟩ := hb
  have hcarry : c.toNat ≤ 1 := Bool.toNat_le c
  have hlow : lowDiff a b c = (a.toNat % 16 : Nat) - (b.toNat % 16 : Nat) + c.toNat - 1 := rfl
  have hhigh := highDiff_cases a b c
  have hl : lowDiff a b c < 0 ∧ borrowed (lowDiff a b c) % 16 = lowDiff a b c + 10 ∨
      0 ≤ lowDiff a b c ∧ borrowed (lowDiff a b c) % 16 = lowDiff a b c := by
    have := borrowed_cases (lowDiff a b c)
    omega
  have hh : highDiff a b c < 0 ∧ borrowed (highDiff a b c) % 16 = highDiff a b c + 10 ∨
      0 ≤ highDiff a b c ∧ borrowed (highDiff a b c) % 16 = highDiff a b c := by
    have := borrowed_cases (highDiff a b c)
    omega
  have hvalue : (decimalValue (subDec a b c).value : Int) =
      borrowed (highDiff a b c) % 16 * 10 + borrowed (lowDiff a b c) % 16 := by
    have := subDec_value a b c
    rw [decimalValue]
    omega
  rw [hc, decide_eq_true_iff, hvalue]
  simp only [decimalValue]
  omega

end Sys2Proof.Claims
end

section
/-! PROOFS. ADC, SBC and the read-modify-write instructions (R164, R165, R190 to R196), form by form: the
bytes decode by the form's row of the opcode map, and the meaning is one shared operation. -/

namespace Sys2Proof.Claims

open Sys2Proof.Machine

/-- A read form decodes from its bytes, its meaning is a shared operation on its operand, and its total
is the operand's. -/
def RunsAs (op : State → Operand → State) (s : State) (f : ReadForm) : Prop :=
  DecodesTo f.bytes f.instr ∧ exec f.instr s = .next (op s f.operand) ∧
  f.operand.readCycles s = f.cycles

/-- Each form of ADC and SBC runs the shared operation of its mnemonic (R164, R165). -/
theorem arithmeticForms_runAs (s : State) (k : Byte) (w : Word) :
    (∀ f ∈ adcForms s k w, RunsAs State.adc s f) ∧ (∀ f ∈ sbcForms s k w, RunsAs State.sbc s f) := by
  simp only [adcForms, sbcForms, ← List.forall_iff_forall_mem, List.Forall]
  refine ⟨⟨?adcImm, ?adcZp, ?adcZpX, ?adcAbs, ?adcAbsX, ?adcAbsY, ?adcIndX, ?adcIndY⟩,
    ⟨?sbcImm, ?sbcZp, ?sbcZpX, ?sbcAbs, ?sbcAbsX, ?sbcAbsY, ?sbcIndX, ?sbcIndY⟩⟩
  case adcAbs | adcAbsX | adcAbsY | sbcAbs | sbcAbsX | sbcAbsY =>
    exact ⟨decodesTo_word (opcodeMap_of_rows rfl), rfl, rfl⟩
  all_goals exact ⟨decodesTo_byte (opcodeMap_of_rows rfl), rfl, rfl⟩

/-- Settles O32: D picks the binary or the decimal sum, and the flags are those of the sum picked. -/
theorem adcAddsWithCarry : Obligations.AdcAddsWithCarry := by
  intro s k w f hf
  obtain ⟨hd, hx, hc⟩ := (arithmeticForms_runAs s k w).1 f hf
  have hframe : ArithmeticFrame s (s.adc f.operand) f := by
    rw [ArithmeticFrame, ← hc]
    rfl
  refine ⟨hd, _, hx, hframe, fun hbin => ?binary, fun hdec => ?decimal⟩
  case binary =>
    have hr : adcResult s.flags s.a (f.operand.value s) = addBin s.a (f.operand.value s) s.flags.c := by
      rw [adcResult, hbin]
      rfl
    simp only [adc_eq, Flags.setAlu, hr]
    exact ⟨addBin_value _ _ _, rfl, (and_mask_ne_zero _).symm, addBin_v _ _ _, addBin_z _ _ _,
      addBin_n _ _ _⟩
  case decimal =>
    have hr : adcResult s.flags s.a (f.operand.value s) = addDec s.a (f.operand.value s) s.flags.c := by
      rw [adcResult, hdec]
      rfl
    rw [← hr]
    exact ⟨rfl, rfl, rfl, rfl, rfl⟩

/-- R165's formula for V: that of the binary sum of A and the complement, whose sign is turned. -/
theorem addBin_not_v (a b : Byte) (c : Bool) :
    (addBin a (~~~b) c).v =
      decide ((a ^^^ b) &&& (a ^^^ (addBin a (~~~b) c).value) &&& 0x80#8 ≠ 0#8) := by
  rw [and_mask_ne_zero, addBin_v_eq_signs, bit_and, bit_xor, bit_xor, bit_not_seven]
  cases bit a 7 <;> cases bit b 7 <;> cases bit (addBin a (~~~b) c).value 7 <;> rfl

/-- Settles O33: D picks the binary or the decimal difference, and the flags are those of the one
picked. -/
theorem sbcSubtractsWithBorrow : Obligations.SbcSubtractsWithBorrow := by
  intro s k w f hf
  obtain ⟨hd, hx, hc⟩ := (arithmeticForms_runAs s k w).2 f hf
  have hframe : ArithmeticFrame s (s.sbc f.operand) f := by
    rw [ArithmeticFrame, ← hc]
    rfl
  refine ⟨hd, _, hx, hframe, fun hbin => ?binary, fun hdec => ?decimal⟩
  case binary =>
    have hr : sbcResult s.flags s.a (f.operand.value s) =
        addBin s.a (~~~(f.operand.value s)) s.flags.c := by
      rw [sbcResult, hbin]
      rfl
    have hdiff : (s.a.toNat : Int) - (f.operand.value s).toNat - (1 - s.flags.c.toNat) =
        (s.a.toNat : Int) - (f.operand.value s).toNat + s.flags.c.toNat - 1 := by omega
    simp only [sbc_eq, Flags.setAlu, hr, hdiff]
    exact ⟨addBin_not_value _ _ _, addBin_not_c _ _ _, addBin_not_v _ _ _, addBin_z _ _ _,
      addBin_n _ _ _⟩
  case decimal =>
    have hr : sbcResult s.flags s.a (f.operand.value s) = subDec s.a (f.operand.value s) s.flags.c := by
      rw [sbcResult, hdec]
      rfl
    rw [← hr]
    exact ⟨rfl, rfl, rfl, rfl, rfl⟩

/-- A read-modify-write function computes `r` and `c` of the byte's number, with the carry given. -/
def Computes (fn : RmwFn) (carry : Bool) (r : Nat → Nat) (c : Nat → Bool) : Prop :=
  ∀ v, (fn v carry).value.toNat = r v.toNat ∧ (fn v carry).c = c v.toNat

/-- The accumulator form of the frame, with the function's results in arithmetic (R190). -/
theorem shiftsA_of_exec {i : Instr} {op : Byte} {fn : RmwFn} {r : Nat → Nat} {c : Nat → Bool}
    {s : State} (hfn : Computes fn s.flags.c r c) (hd : DecodesTo [op] i) (hx : exec i s = .next (s.rmwAcc fn)) :
    ShiftsA i op r c s := by
  obtain ⟨hr, hc⟩ := hfn s.a
  refine ⟨hd, _, hx, hr, ?_⟩
  simp only [rmwAcc_eq, Flags.setShift, setZN_eq_withZN, hc]

/-- The meaning of a memory form is the shared frame of its family, with the total of its mode. -/
def RunsRmw (fn : RmwFn) (s : State) (f : MemForm) : Prop :=
  DecodesTo f.bytes f.instr ∧ exec f.instr s = .next (s.rmwMem fn f.mode) ∧ f.mode.rmwCycles = f.cycles

/-- The memory form of the frame, with the function's results in arithmetic (R190). -/
theorem shiftsMemory_of_runsRmw {fn : RmwFn} {r : Nat → Nat} {c : Nat → Bool} {s : State}
    {f : MemForm} (hfn : Computes fn s.flags.c r c) (h : RunsRmw fn s f) : ShiftsMemory r c s f := by
  obtain ⟨hd, hx, hcycles⟩ := h
  obtain ⟨hr, hc⟩ := hfn (s.mem.read (f.mode.ea s))
  refine ⟨hd, _, hx, ?_, unchangedOutside_write s _ _, ?_⟩
  · simp only [rmwMem_eq, Memory.read_write_same, hr]
  · simp only [rmwMem_eq, Memory.read_write_same, Flags.setShift, setZN_eq_withZN, hc, hcycles]

/-- Each memory form of a read-modify-write runs the function of its mnemonic (R191 to R196). -/
theorem rmwForms_run (s : State) (k : Byte) (w : Word) :
    (∀ f ∈ aslForms k w, RunsRmw aslByte s f) ∧ (∀ f ∈ lsrForms k w, RunsRmw lsrByte s f) ∧
    (∀ f ∈ rolForms k w, RunsRmw rolByte s f) ∧ (∀ f ∈ rorForms k w, RunsRmw rorByte s f) ∧
    (∀ f ∈ incForms k w, RunsRmw incByte s f) ∧ (∀ f ∈ decForms k w, RunsRmw decByte s f) := by
  simp only [aslForms, lsrForms, rolForms, rorForms, incForms, decForms, ← List.forall_iff_forall_mem,
    List.Forall]
  refine ⟨⟨?aslZp, ?aslZpX, ?aslAbs, ?aslAbsX⟩, ⟨?lsrZp, ?lsrZpX, ?lsrAbs, ?lsrAbsX⟩,
    ⟨?rolZp, ?rolZpX, ?rolAbs, ?rolAbsX⟩, ⟨?rorZp, ?rorZpX, ?rorAbs, ?rorAbsX⟩,
    ⟨?incZp, ?incZpX, ?incAbs, ?incAbsX⟩, ⟨?decZp, ?decZpX, ?decAbs, ?decAbsX⟩⟩
  case aslAbs | aslAbsX | lsrAbs | lsrAbsX | rolAbs | rolAbsX | rorAbs | rorAbsX | incAbs | incAbsX
      | decAbs | decAbsX =>
    exact ⟨decodesTo_word (opcodeMap_of_rows rfl), rfl, rfl⟩
  all_goals exact ⟨decodesTo_byte (opcodeMap_of_rows rfl), rfl, rfl⟩

/-- Settles O37: both forms of the frame run `aslByte` or `rolByte`, which double the byte. -/
theorem leftShiftsDoubleTheByte : Obligations.LeftShiftsDoubleTheByte := by
  intro s k w
  obtain ⟨haslForms, -, hrolForms, -⟩ := rmwForms_run s k w
  have hasl : Computes aslByte s.flags.c (fun v => 2 * v % 256) (fun v => decide (128 ≤ v)) :=
    fun v => ⟨toNat_aslByte v _, bit_seven v⟩
  have hrol : Computes rolByte s.flags.c (fun v => (2 * v + s.flags.c.toNat) % 256)
      (fun v => decide (128 ≤ v)) := fun v => ⟨toNat_rolByte v _, bit_seven v⟩
  exact ⟨shiftsA_of_exec hasl (decodesTo_bare rfl) rfl,
    fun f hf => shiftsMemory_of_runsRmw hasl (haslForms f hf),
    shiftsA_of_exec hrol (decodesTo_bare rfl) rfl,
    fun f hf => shiftsMemory_of_runsRmw hrol (hrolForms f hf)⟩

/-- Settles O38: both forms of the frame run `lsrByte` or `rorByte`, which halve the byte. -/
theorem rightShiftsHalveTheByte : Obligations.RightShiftsHalveTheByte := by
  intro s k w
  obtain ⟨-, hlsrForms, -, hrorForms, -⟩ := rmwForms_run s k w
  have hlsr : Computes lsrByte s.flags.c (fun v => v / 2) (fun v => decide (v % 2 = 1)) :=
    fun v => ⟨toNat_lsrByte v _, bit_zero v⟩
  have hror : Computes rorByte s.flags.c (fun v => v / 2 + 128 * s.flags.c.toNat)
      (fun v => decide (v % 2 = 1)) := fun v => ⟨toNat_rorByte v _, bit_zero v⟩
  exact ⟨shiftsA_of_exec hlsr (decodesTo_bare rfl) rfl,
    fun f hf => shiftsMemory_of_runsRmw hlsr (hlsrForms f hf),
    shiftsA_of_exec hror (decodesTo_bare rfl) rfl,
    fun f hf => shiftsMemory_of_runsRmw hror (hrorForms f hf)⟩

/-- Settles O39: the memory form runs `incByte` or `decByte`, which hand C through. -/
theorem incAndDecChangeMemoryByOne : Obligations.IncAndDecChangeMemoryByOne := by
  intro s k w
  obtain ⟨-, -, -, -, hincForms, hdecForms⟩ := rmwForms_run s k w
  have hinc : Computes incByte s.flags.c (fun v => (v + 1) % 256) (fun _ => s.flags.c) :=
    fun v => ⟨BitVec.toNat_add v 1#8, rfl⟩
  have hdec : Computes decByte s.flags.c (fun v => (v + 255) % 256) (fun _ => s.flags.c) := by
    refine fun v => ⟨?_, rfl⟩
    rw [decByte, ← ofNat_toNat_add_255, BitVec.toNat_ofNat]
  exact ⟨fun f hf => shiftsMemory_of_runsRmw hinc (hincForms f hf),
    fun f hf => shiftsMemory_of_runsRmw hdec (hdecForms f hf)⟩

end Sys2Proof.Claims
end

section
/-! PROOFS. Addresses, branches, jumps and the stack (R117 to R120, R210 to R234). -/

namespace Sys2Proof.Machine

/-- A byte read through a zero-extended address, as the claims count addresses. -/
theorem byteAt_zext16 (s : State) (p : Byte) :
    (s.mem.read (zext16 p)).toNat = Claims.byteAt s p.toNat := by
  rw [Claims.byteAt, zext16, BitVec.ofNat_toNat]

/-- A zero-page pointer is little-endian, its high byte at the next byte of page zero (R53, R117). -/
theorem toNat_read16zp (s : State) (p : Byte) :
    (s.mem.read16zp p).toNat =
      Claims.byteAt s p.toNat + 256 * Claims.byteAt s ((p.toNat + 1) % 256) := by
  have hnext : (p + 1#8).toNat = (p.toNat + 1) % 256 := BitVec.toNat_add p 1#8
  rw [Memory.read16zp, toNat_wordOf, byteAt_zext16, byteAt_zext16, hnext]
  omega

/-- The JMP indirect pointer is little-endian, its high byte at the next byte of its page (R119). -/
theorem toNat_read16page (s : State) (w : Word) :
    (s.mem.read16page w).toNat = Claims.byteAt s w.toNat
      + 256 * Claims.byteAt s (w.toNat / 256 * 256 + (w.toNat % 256 + 1) % 256) := by
  have hhigh : wordOf (hiByte w) (loByte w + 1#8) =
      BitVec.ofNat 16 (w.toNat / 256 * 256 + (w.toNat % 256 + 1) % 256) := by
    have hw := w.isLt
    apply BitVec.eq_of_toNat_eq
    rw [toNat_wordOf, BitVec.toNat_add, toNat_hiByte, toNat_loByte, BitVec.toNat_ofNat]
    simp only [BitVec.toNat_ofNat]
    omega
  rw [Memory.read16page, toNat_wordOf, hhigh, Claims.byteAt, Claims.byteAt, BitVec.ofNat_toNat,
    BitVec.setWidth_eq]
  omega

/-- A byte in arithmetic is its signed value (R9, R87). -/
theorem toInt_eq_signed (d : Byte) : d.toInt = Claims.signed d := by
  have hd := d.isLt
  rw [BitVec.toInt_eq_toNat_cond, Claims.signed]
  split <;> split <;> omega

end Sys2Proof.Machine

namespace Sys2Proof.Claims

open Sys2Proof.Machine

/-- Settles O25: (indirect,X) adds no index to the word it reads, and (indirect),Y adds Y to it, whose
page is the pointer's high byte. -/
theorem indirectAddressesReadZeroPagePointers : Obligations.IndirectAddressesReadZeroPagePointers := by
  intro s p
  have hbaseX : ((MemMode.indX p).base s).toNat =
      byteAt s ((p.toNat + s.x.toNat) % 256) + 256 * byteAt s ((p.toNat + s.x.toNat + 1) % 256) := by
    have hptr : (p + s.x).toNat = (p.toNat + s.x.toNat) % 256 := BitVec.toNat_add p s.x
    rw [MemMode.base, toNat_read16zp, hptr, Nat.mod_add_mod]
  have hbaseY : ((MemMode.indY p).base s).toNat =
      byteAt s p.toNat + 256 * byteAt s ((p.toNat + 1) % 256) := toNat_read16zp s p
  have hlow : byteAt s p.toNat < 256 := (s.mem.read (BitVec.ofNat 16 p.toNat)).isLt
  refine ⟨?_, px_eq_false_of_index_zero rfl, ?_, ?_⟩
  · rw [ea_eq_base_of_index_zero rfl, hbaseX]
  · rw [toNat_ea, hbaseY]
    rfl
  · rw [px_iff, hbaseY]
    omega

/-- A branch decodes from its row, and its meaning is the shared branch on its condition (R210). -/
theorem branches_of_exec {op : Byte} {i : Byte → Instr} {cond : Flags → Bool}
    (hmap : opcodeMap op = some (.byte i))
    (hx : ∀ s d, exec (i d) s = .next (s.branch (cond s.flags) d)) : Branches op i cond := by
  intro s d
  refine ⟨decodesTo_byte hmap, fun hc => ?stays, fun hc => ⟨s.branch true d, ?goes, ?target, ?frame⟩⟩
  case stays => rw [hx, hc]; rfl
  case goes => rw [hx, hc]
  case target =>
    rw [← toInt_eq_signed]
    exact toNat_branchTarget s.pc d
  case frame => simp only [branch_eq, branchCycles, page_eq_iff, if_true]

/-- Settles O41: each branch is the shared one on the condition of its mnemonic. -/
theorem branchesFollowTheirFlag : Obligations.BranchesFollowTheirFlag := by
  refine ⟨?bcc, ?bcs, ?beq, ?bne, ?bmi, ?bpl, ?bvc, ?bvs⟩
  all_goals exact branches_of_exec (opcodeMap_of_rows rfl) fun _ _ => rfl

/-- Settles O42: the indirect target is the word `toNat_read16page` reads. -/
theorem jmpGoesToItsTarget : Obligations.JmpGoesToItsTarget := fun s w =>
  ⟨decodesTo_word rfl, rfl, decodesTo_word rfl, _, rfl, toNat_read16page s w, rfl⟩

/-- The stack after a push: the byte in the slot, every other byte as before (R23). -/
theorem push_frame (s : State) (v : Byte) :
    (s.push v).mem.read (stackAddr s.sp) = v ∧ UnchangedOutside [stackAddr s.sp] s (s.push v) :=
  ⟨Memory.read_write_same _ _ _, unchangedOutside_write s _ v⟩

/-- Settles O43: the address of the last byte is PC less 1, and its two bytes lie in the two slots. -/
theorem jsrPushesTheReturnAddress : Obligations.JsrPushesTheReturnAddress := by
  intro s w
  have hne : stackAddr s.sp ≠ stackAddr (s.sp - 1#8) := (stackAddr_inj _ _).not.mpr (ne_sub_one s.sp)
  have hret : (s.pc - 1#16).toNat = (s.pc.toNat + 65535) % 65536 := by
    rw [BitVec.toNat_sub, Nat.add_comm]
    rfl
  refine ⟨decodesTo_word rfl, { s.pushWord (s.pc - 1#16) with pc := w, cycles := s.cycles + 6 }, rfl, ?_⟩
  simp only [pushWord_eq]
  refine ⟨trivial, ?high, ?low, fun a ha => ?frame⟩
  case high => rw [Memory.read_write_other _ _ _ _ hne, Memory.read_write_same, toNat_hiByte, hret]
  case low =>
    rw [Memory.read_write_same, toNat_loByte, hret]
    omega
  case frame =>
    simp only [List.mem_cons, List.not_mem_nil, or_false, not_or] at ha
    rw [Memory.read_write_other _ _ _ _ ha.2, Memory.read_write_other _ _ _ _ ha.1]

/-- Settles O44: the word pulled, low byte from the lower slot, plus 1 modulo 65536. -/
theorem rtsReturnsPastThePulledAddress : Obligations.RtsReturnsPastThePulledAddress := by
  intro s
  refine ⟨decodesTo_bare rfl,
    { s.pullWord.2 with pc := s.pullWord.1 + 1#16, cycles := s.cycles + 6 }, rfl, ?_⟩
  simp only [pullWord_eq]
  refine ⟨?_, trivial⟩
  rw [BitVec.toNat_add, toNat_wordOf]
  simp only [BitVec.toNat_ofNat]
  omega

/-- Settles O46: PHA is one push, and PLA loads the byte it pulls with `SetZN`. -/
theorem phaAndPlaMoveA : Obligations.PhaAndPlaMoveA := by
  intro s
  obtain ⟨hslot, hframe⟩ := push_frame s s.a
  refine ⟨decodesTo_bare rfl, ⟨_, rfl, rfl, hslot, hframe⟩, ?_⟩
  rw [← setZN_eq_withZN]
  exact oneByte_of_exec rfl rfl

/-- A PHA as a whole step (R230). -/
theorem step_pha {s : State} (hu : s.Undisturbed) (hop : s.mem.read s.pc = 0x48#8) :
    step s = .next { s with
      pc := s.pc + 1#16, sp := s.sp - 1#8, mem := s.mem.write (stackAddr s.sp) s.a
      cycles := s.cycles + 3 } := by
  have hmap : opcodeMap (s.mem.read s.pc) = some (.bare .pha) := by
    rw [hop]
    rfl
  rw [step_of_bare hu hmap]
  rfl

/-- A PLA as a whole step, given the byte it pulls (R231). -/
theorem step_pla {s : State} {v : Byte} (hu : s.Undisturbed) (hop : s.mem.read s.pc = 0x68#8)
    (hv : s.mem.read (stackAddr (s.sp + 1#8)) = v) :
    step s = .next { s with
      a := v, pc := s.pc + 1#16, sp := s.sp + 1#8, flags := s.flags.setZN v
      cycles := s.cycles + 4 } := by
  have hmap : opcodeMap (s.mem.read s.pc) = some (.bare .pla) := by
    rw [hop]
    exact opcodeMap_of_rows rfl
  rw [step_of_bare hu hmap, ← hv]
  rfl

/-- Settles O47: PHA changes neither flag nor input, so PLA is the next step, and it pulls what PHA
pushed. -/
theorem phaThenPlaRestoresA : Obligations.PhaThenPlaRestoresA := by
  intro s t hu hop hstep hop'
  rw [step_pha hu hop] at hstep
  cases hstep
  have hsp : s.sp - 1#8 + 1#8 = s.sp := BitVec.sub_add_cancel _ _
  have hpull : (s.mem.write (stackAddr s.sp) s.a).read (stackAddr (s.sp - 1#8 + 1#8)) = s.a := by
    rw [hsp, Memory.read_write_same]
  exact ⟨_, step_pla hu hop' hpull, rfl, hsp, rfl, setZN_eq_withZN s.flags s.a⟩

/-- A packed status byte, bit by bit (R28). -/
theorem statusByte_pack (f : Flags) (b4 : Bool) : StatusByte (f.pack b4) f b4 := bit_pack f b4

/-- Settles O48: PHP is one push, of the status packed with the stored B. -/
theorem phpPushesThePackedStatus : Obligations.PhpPushesThePackedStatus := by
  intro s
  obtain ⟨hslot, hframe⟩ := push_frame s (s.flags.pack s.flags.b)
  have hstatus : StatusByte ((s.push (s.flags.pack s.flags.b)).mem.read (stackAddr s.sp)) s.flags
      s.flags.b := by
    rw [hslot]
    exact statusByte_pack s.flags s.flags.b
  exact ⟨decodesTo_bare rfl, _, rfl, rfl, hstatus, hframe⟩

end Sys2Proof.Claims
end

section
/-! PROOFS. Exceptions (R236, R237, R264 to R269): what an entry leaves on the stack, and that a return
finds it. -/

namespace Sys2Proof.Machine

/-- The frame an entry leaves: the return address, high byte first, and the status (R236, R266). -/
theorem read_enterHandler_frame (s : State) (ret : Word) (b4 : Bool) (vector : Word) :
    (s.enterHandler ret b4 vector).mem.read (stackAddr s.sp) = hiByte ret ∧
    (s.enterHandler ret b4 vector).mem.read (stackAddr (s.sp - 1#8)) = loByte ret ∧
    (s.enterHandler ret b4 vector).mem.read (stackAddr (s.sp - 2#8)) = s.flags.pack b4 := by
  simp only [enterHandler_mem, Memory.read_write, stackAddr_inj, ne_sub_one, ne_sub_two,
    sub_one_ne_sub_two, if_true, if_false, and_self]

/-- Every byte but those of the frame is kept (R236, R266). -/
theorem read_enterHandler_other {s : State} {ret : Word} {b4 : Bool} {vector a : Word}
    (ha : a ∉ [stackAddr s.sp, stackAddr (s.sp - 1#8), stackAddr (s.sp - 2#8)]) :
    (s.enterHandler ret b4 vector).mem.read a = s.mem.read a := by
  simp only [List.mem_cons, List.not_mem_nil, or_false, not_or] at ha
  obtain ⟨h0, h1, h2⟩ := ha
  simp only [enterHandler_mem, Memory.read_write, h0, h1, h2, if_false]

/-- An address above the stack keeps its byte over an entry. -/
theorem read_enterHandler_high {s : State} {ret : Word} {b4 : Bool} {vector a : Word}
    (ha : 512 ≤ a.toNat) : (s.enterHandler ret b4 vector).mem.read a = s.mem.read a := by
  refine read_enterHandler_other ?_
  simp only [List.mem_cons, stackAddr_ne_of_high ha, List.not_mem_nil, or_false, not_false_iff]

/-- A return finds the frame of an entry: it restores PC, SP and every flag but B (R237, R268, R269). -/
theorem returnFromHandler_of_frame {u s : State} {ret : Word} {b4 : Bool} (hsp : u.sp = s.sp - 3#8)
    (hhigh : u.mem.read (stackAddr s.sp) = hiByte ret)
    (hlow : u.mem.read (stackAddr (s.sp - 1#8)) = loByte ret)
    (hstatus : u.mem.read (stackAddr (s.sp - 2#8)) = s.flags.pack b4) :
    u.returnFromHandler =
      { u with
        sp := s.sp, pc := ret, flags := { s.flags with b := u.flags.b }, cycles := u.cycles + 6 } := by
  have h1 : u.sp + 1#8 = s.sp - 2#8 := by rw [hsp]; bv_omega
  have h2 : u.sp + 2#8 = s.sp - 1#8 := by rw [hsp]; bv_omega
  have h3 : u.sp + 3#8 = s.sp := by rw [hsp, BitVec.sub_add_cancel]
  rw [returnFromHandler_eq, h1, h2, h3, hhigh, hlow, hstatus, wordOf_hiByte_loByte, unpack_pack]

/-- An interrupt entry pushes PC and the status of the interrupted state, whichever its source (R266). -/
theorem takeInterrupt_frame (s : State) (src : Interrupt) :
    (s.takeInterrupt src).sp = s.sp - 3#8 ∧
    (s.takeInterrupt src).mem.read (stackAddr s.sp) = hiByte s.pc ∧
    (s.takeInterrupt src).mem.read (stackAddr (s.sp - 1#8)) = loByte s.pc ∧
    (s.takeInterrupt src).mem.read (stackAddr (s.sp - 2#8)) = s.flags.pack false := by
  cases src with
  | nmi => exact ⟨enterHandler_sp _ _ _ _, read_enterHandler_frame (s.setNmiPending false) _ _ _⟩
  | irq => exact ⟨enterHandler_sp _ _ _ _, read_enterHandler_frame s _ _ _⟩

/-- A pending NMI is the interrupt taken (R267). -/
theorem pendingInterrupt_nmi {s : State} (h : s.nmiPending = true) :
    s.pendingInterrupt = some .nmi := by
  rw [State.pendingInterrupt, if_pos h]

/-- A held line is taken while I is 0 and no NMI is pending (R263, R267). -/
theorem pendingInterrupt_irq {s : State} (hn : s.nmiPending = false) (hl : s.irqLine = true)
    (hi : s.flags.i = false) : s.pendingInterrupt = some .irq := by
  rw [State.pendingInterrupt, hn, hl, hi]
  rfl

end Sys2Proof.Machine

namespace Sys2Proof.Claims

open Sys2Proof.Machine

/-- An exception entry through a vector above the stack. -/
theorem handlerEntered_enterHandler (s : State) (ret : Word) (b4 : Bool) {vector : Word}
    (hv : 512 ≤ vector.toNat) (hv' : 512 ≤ (vector + 1#16).toNat) :
    HandlerEntered s (s.enterHandler ret b4 vector) ret b4 vector s.nmiPending := by
  obtain ⟨hhigh, hlow, hstatus⟩ := read_enterHandler_frame s ret b4 vector
  refine ⟨?record, ?pc, hhigh, hlow, ?status, fun a ha => read_enterHandler_other ha⟩
  case record => rw [enterHandler_pc]; exact enterHandler_eq s ret b4 vector
  case pc =>
    rw [enterHandler_pc, Memory.read16, toNat_wordOf, read_enterHandler_high hv,
      read_enterHandler_high hv']
    omega
  case status =>
    rw [hstatus]
    exact statusByte_pack s.flags b4

/-- Settles O9: NMI enters with its latch cleared, IRQ with nothing cleared. -/
theorem interruptEntryForNmiAndIrq : Obligations.InterruptEntryForNmiAndIrq := by
  intro s
  refine ⟨fun hn => ⟨_, step_of_interrupt (pendingInterrupt_nmi hn), ?nmi⟩,
    fun hn hl hi => ⟨_, step_of_interrupt (pendingInterrupt_irq hn hl hi), ?irq⟩⟩
  case nmi =>
    exact handlerEntered_enterHandler (s.setNmiPending false) s.pc false (vector := nmiVector)
      (by decide) (by decide)
  case irq =>
    have hentered :=
      handlerEntered_enterHandler s s.pc false (vector := irqVector) (by decide) (by decide)
    rwa [hn] at hentered

/-- Settles O50: BRK is the shared entry with bit 4 set, through a vector the frame does not reach. -/
theorem brkEntersItsHandler : Obligations.BrkEntersItsHandler := fun s =>
  ⟨decodesTo_bare rfl, _, rfl,
    handlerEntered_enterHandler s (s.pc + 1#16) true (vector := irqVector) (by decide) (by decide)⟩

/-- Settles O51: RTI is the shared return, and `Flags.unpack_eq` reads the pulled status bit by bit. -/
theorem rtiRestoresStatusAndPc : Obligations.RtiRestoresStatusAndPc := by
  intro s
  refine ⟨decodesTo_bare rfl, s.returnFromHandler, rfl, ?_⟩
  rw [returnFromHandler_eq, Flags.unpack_eq]
  refine ⟨?_, rfl⟩
  rw [toNat_wordOf]
  omega

/-- Settles O52: the frame is that of the entry, so the return restores what the entry saved. -/
theorem returnFromHandlerResumesTheInterrupted : Obligations.ReturnFromHandlerResumesTheInterrupted := by
  intro s t u hsp hb hmem
  have hhigh := hmem (stackAddr s.sp) (by simp)
  have hlow := hmem (stackAddr (s.sp - 1#8)) (by simp)
  have hstatus := hmem (stackAddr (s.sp - 2#8)) (by simp)
  have hflags : { s.flags with b := u.flags.b } = s.flags := by rw [hb]
  refine ⟨fun hd hstep => ?interrupt, fun hbrk => ?brk⟩
  case interrupt =>
    rcases step_next hstep with ⟨-, src, -, rfl⟩ | ⟨hu, -⟩
    · obtain ⟨hsp', hhigh', hlow', hstatus'⟩ := takeInterrupt_frame s src
      have hret := returnFromHandler_of_frame (hsp.trans hsp') (hhigh.trans hhigh') (hlow.trans hlow')
        (hstatus.trans hstatus')
      rw [hflags] at hret
      exact congrArg Host.Outcome.next hret
    · exact absurd hu hd
  case brk =>
    cases hbrk
    obtain ⟨hhigh', hlow', hstatus'⟩ := read_enterHandler_frame s (s.pc + 1#16) true irqVector
    have hret := returnFromHandler_of_frame (hsp.trans (enterHandler_sp _ _ _ _)) (hhigh.trans hhigh')
      (hlow.trans hlow') (hstatus.trans hstatus')
    rw [hflags] at hret
    exact congrArg Host.Outcome.next hret

end Sys2Proof.Claims
end

section
/-! PROOFS. Launch and reset (R290, R293, R294). -/

namespace Sys2Proof.Machine

theorem toNat_byteSetting {r : Option Nat} (h : settingOk 256 r = true) (v : Byte) :
    (byteSetting r v).toNat = r.getD v.toNat := by
  cases r with
  | none => rfl
  | some k => exact Nat.mod_eq_of_lt (of_decide_eq_true h)

theorem toNat_wordSetting {r : Option Nat} (h : settingOk 65536 r = true) (w : Word) :
    (wordSetting r w).toNat = r.getD w.toNat := by
  cases r with
  | none => rfl
  | some k => exact Nat.mod_eq_of_lt (of_decide_eq_true h)

theorem toNat_flagSetting {r : Option Nat} (h : settingOk 2 r = true) (v : Bool) :
    (flagSetting r v).toNat = r.getD v.toNat := by
  cases r with
  | none => rfl
  | some k =>
    have hk : k < 2 := of_decide_eq_true h
    interval_cases k <;> rfl

/-- An overlay leaves every byte it does not name. -/
theorem read_overlay_other (m : Memory) {overlay : List (Nat × Nat)} {a : Word}
    (hok : ∀ p ∈ overlay, p.1 < 65536) (h : ∀ p ∈ overlay, p.1 ≠ a.toNat) :
    (m.load (overlayCells overlay)).read a = m.read a := by
  refine Memory.read_load_other _ _ _ fun q hq e => ?_
  obtain ⟨p, hp, rfl⟩ := List.mem_map.mp hq
  refine h p hp ?_
  rw [← e, BitVec.toNat_ofNat, Nat.mod_eq_of_lt (hok p hp)]

/-- An overlay that names an address once leaves the byte it gives there (R290). -/
theorem read_overlay_at (m : Memory) {pre post : List (Nat × Nat)} {a : Word} {v : Nat}
    (hok : ∀ p ∈ pre ++ (a.toNat, v) :: post, p.1 < 65536) (h : ∀ p ∈ pre ++ post, p.1 ≠ a.toNat) :
    (m.load (overlayCells (pre ++ (a.toNat, v) :: post))).read a = BitVec.ofNat 8 v := by
  have hpost : ∀ p ∈ post, p ∈ pre ++ (a.toNat, v) :: post ∧ p ∈ pre ++ post := fun p hp => by simp [hp]
  have hcells : overlayCells (pre ++ (a.toNat, v) :: post) =
      overlayCells pre ++ (a, BitVec.ofNat 8 v) :: overlayCells post := by
    simp [overlayCells]
  rw [hcells, Memory.load_append, Memory.load, read_overlay_other _ (fun p hp => hok p (hpost p hp).1)
    (fun p hp => h p (hpost p hp).2), Memory.read_write_same]

end Sys2Proof.Machine

namespace Sys2Proof.Claims

open Sys2Proof.Machine

/-- Settles O18: every field is read off the one update, PC as a word and SP as a number. -/
theorem resetOperationSetsWhatTheRuleNames : Obligations.ResetOperationSetsWhatTheRuleNames := by
  intro s
  have hpc : s.resetOperation.pc = wordOf (s.mem.read 0xFFFD#16) (s.mem.read 0xFFFC#16) := rfl
  refine ⟨s.resetOperation, rfl, ?pc, ?sp, rfl, fun hzero => ?zero⟩
  case pc =>
    rw [hpc, toNat_wordOf]
    omega
  case sp =>
    have hs : s.resetOperation.sp = s.sp - 3#8 := rfl
    rw [hs, BitVec.toNat_sub, Nat.add_comm]
    rfl
  case zero =>
    rw [hpc, hzero, hzero]
    rfl

/-- Settles O19: the launch with nothing given is the all-default state over zero-filled memory. -/
theorem resetStateIsTheResetOfTheDefaultLaunch : Obligations.ResetStateIsTheResetOfTheDefaultLaunch :=
  ⟨⟨_, rfl, rfl⟩, rfl, rfl, rfl, rfl, rfl, rfl, Memory.read_zero⟩

/-- Settles O20: the program is placed last, so it wins over the overlay, and both lie over zeros. -/
theorem launchBuildsTheHarnessState : Obligations.LaunchBuildsTheHarnessState := by
  intro d r
  refine ⟨fun hr => ?rejected, fun hr => ⟨launchState d r, ?launched, ?_⟩⟩
  case rejected => rw [launch, hr]; rfl
  case launched => rw [launch, hr]; rfl
  simp only [LaunchRequest.wellFormed, LaunchRequest.registersOk, LaunchRequest.flagsOk,
    LaunchRequest.memoryOk, Bool.and_eq_true, List.all_eq_true, decide_eq_true_eq] at hr
  obtain ⟨⟨hregisters, hflags⟩, hprogram, hoverlay⟩ := hr
  obtain ⟨⟨⟨⟨hpc, ha⟩, hx⟩, hy⟩, hsp⟩ := hregisters
  obtain ⟨⟨⟨⟨⟨⟨hc, hz⟩, hi⟩, hd⟩, hb⟩, hv⟩, hn⟩ := hflags
  refine ⟨toNat_wordSetting hpc _, toNat_byteSetting ha _, toNat_byteSetting hx _,
    toNat_byteSetting hy _, toNat_byteSetting hsp _, toNat_flagSetting hc _, toNat_flagSetting hz _, toNat_flagSetting hi _,
    toNat_flagSetting hd _, toNat_flagSetting hb _, toNat_flagSetting hv _, toNat_flagSetting hn _,
    rfl, rfl, rfl, fun k v hk hlen => ?program, fun a houtside => ?outside⟩
  case program =>
    have hbyte : (r.program.map (BitVec.ofNat 8))[k]? = some (BitVec.ofNat 8 v) := by
      rw [List.getElem?_map, hk]
      rfl
    have hlt : v < 256 := hprogram v (List.mem_of_getElem? hk)
    have hread := Memory.read_place_at (Memory.zero.load (overlayCells r.overlay)) _
      (launchState d r).pc k _ hbyte (by rwa [List.length_map])
    exact (congrArg BitVec.toNat hread).trans (Nat.mod_eq_of_lt hlt)
  case outside =>
    have hread : (launchState d r).mem.read a = (Memory.zero.load (overlayCells r.overlay)).read a :=
      Memory.read_place_other _ _ _ _ fun k hk => houtside k (by rwa [List.length_map] at hk)
    have haddr : ∀ p ∈ r.overlay, p.1 < 65536 := fun p hp => (hoverlay p hp).1
    rw [hread]
    refine ⟨fun pre v post hsplit hother => ?named, fun hother => ?zero⟩
    case named =>
      rw [hsplit] at haddr
      have hlt : v < 256 := (hoverlay (a.toNat, v) (by simp [hsplit])).2
      rw [hsplit, read_overlay_at _ haddr hother]
      exact Nat.mod_eq_of_lt hlt
    case zero => rw [read_overlay_other _ haddr hother, Memory.read_zero]

end Sys2Proof.Claims
end
